-- ==== Sys2Proof/Word.lean ====
section
/-! DEFINITION. The byte, and the word types of the 16-bit registers (00_scope.md R11, R12). -/

namespace Sys2Proof

/-- A byte: 8 bits, unsigned, bit 7 the most significant (R12). -/
abbrev Byte := BitVec 8

/-- A 16-bit register or input: the start address (R22) and the two time registers (R24, R25, `TIME_W` = 16). -/
abbrev Word16 := BitVec 16

end Sys2Proof
end

