-- ==== Sys2Proof/Config.lean ====
section
/-! DEFINITION. The constants the document fixes (00_scope.md R9), the parameters it gives a default for (R10), the
parameters the spec decides (R11), and the free values: opaque constants, without a body, for what the spec leaves
unspecified (10_state.md R27, R33). -/

namespace Sys2Proof.Config

/-- `HEAD`, the first byte of every Block (R9). -/
abbrev head : Byte := 0x55

/-- `SYNC`, the second byte of every Block (R9). -/
abbrev sync : Byte := 0x3C

/-- `TRAIL`, the last byte of every Block (R9). -/
abbrev trail : Byte := 0x55

/-- `CHUNK_MAX`, the largest payload of a Data Block and the Segmenter's chunk size (R9, R79). -/
abbrev chunkMax : Nat := 255

/-- `START_LEN`, the payload length of a Start Address Block (R9). -/
abbrev startLen : Nat := 2

/-- `NL`, the newline byte (R11).
PRESUMED 0x0A (G1 of 93_implementation_defined.md: from general knowledge), log entry 8. -/
abbrev newline : Byte := 0x0A

/-- The default of `TIMEOUT_MS` (R10), which a host that chooses no timeout of its own presents. -/
abbrev defaultTimeoutMs : Word16 := 2000

/-- The baud rate of the canonical Link (R10); the core never reads it. -/
abbrev defaultBaud : Nat := 115200

/-- The largest payload length a request of the stand-alone Framer can carry (R118: `fr_len` is a number 0 to 511). -/
abbrev framerLenMax : Nat := 511

/-! The free values (log entry 28): what a reset leaves in the registers R33 calls unspecified, and what the working
registers hold between Blocks (R27). Each is applied to the counter `freeCtr` of State. -/

opaque freeStartAddr : Nat → Word16
opaque freeImgLen : Nat → Nat
opaque freeTimeoutMs : Nat → Word16
opaque freeBlkKind : Nat → Byte
opaque freeBlkLen : Nat → Byte
opaque freeCksAcc : Nat → Byte
opaque freeByteIdx : Nat → BitVec 9

end Sys2Proof.Config
end

