-- ==== Sys2Proof/Machine/Checksum.lean ====
section
/-! DEFINITION. The sub-block `checksum_modular_sum_gen`: the 8-bit modular sum (40_checksum.md R67). -/

namespace Sys2Proof.Machine

/-- The accumulation loop of R67 from the accumulator `acc`, in increasing index; each carry out is discarded. -/
def checksumFrom (acc : Byte) : List Byte → Byte
  | [] => acc
  | b :: bs => checksumFrom (acc + b) bs

/-- `checksum(bs)` (R67): the accumulator starts at 0. -/
def checksum (bs : List Byte) : Byte :=
  checksumFrom 0 bs

end Sys2Proof.Machine
end

