-- ==== Sys2Proof/Syntax.lean ====
section
/-! DEFINITION. The operations of the hardware: one constructor of `Instr` per row of spec/opcode_table.json. -/

namespace Sys2Proof

/-- The kind of a Block, a three-valued enumeration (30_encoding.md R58, R60). -/
inductive Kind where
  | start
  | data
  | trailer
deriving DecidableEq, Repr

/-- The three waits; `AWAIT.ENTER`'s operand is one of them (44_ack_watchdog.md R95). -/
inductive Wait where
  | startAck
  | dataAck
  | trailerAck
deriving DecidableEq, Repr

/-- What the Link's `open` answers (45_link_and_ports.md R104): a Link, with whatever its receive queue holds then
(U8: any content), or an error. It is the environment's answer, so it is an input (log entry 14). -/
inductive LinkReply where
  | opened (queued : List Byte)
  | unavailable
deriving DecidableEq, Repr

/-- What the other agents do during one wait of a whole session (`UPLOAD`): the bytes the remote end sends and the
ticks that pass before the core's next poll step (log entry 15). -/
structure WaitPlay where
  line : List Byte
  ticks : Nat
deriving DecidableEq, Repr

/-- The operations, in the order of the opcode table. -/
inductive Instr where
  /-- `FRAME.START`: `frame(START, payload)` (R72). -/
  | frameStart (payload : List Byte)
  /-- `FRAME.DATA`: `frame(DATA, payload)` (R73). -/
  | frameData (payload : List Byte)
  /-- `FRAME.TRAILER`: `frame(TRAILER, payload)` (R74). -/
  | frameTrailer (payload : List Byte)
  /-- `FRAME.INVALID`: `frame(kind, payload)` with a payload length outside the kind's range (R75). -/
  | frameInvalid (kind : Kind) (payload : List Byte)
  /-- `CHECKSUM`: `checksum(bs)` (R67). -/
  | checksum (bs : List Byte)
  /-- `SEG.NEXT`: `seg_next(cursor)` (R76). -/
  | segNext
  /-- `HOST.START`: the start command with its three inputs (R110). -/
  | hostStart (startAddr : Word16) (imgLen : Nat) (timeoutMs : Word16)
  /-- `HOST.RESET` (R135). -/
  | hostReset
  /-- `SESSION.IDLE` (R82). -/
  | sessionIdle
  /-- `SESSION.SEND_START` (R83). -/
  | sessionSendStart
  /-- `SESSION.SEND_DATA` (R84). -/
  | sessionSendData
  /-- `SESSION.NO_DATA` (R85). -/
  | sessionNoData
  /-- `SESSION.SEND_TRAILER` (R86). -/
  | sessionSendTrailer
  /-- `SESSION.ACK_NEXT`: the table `next(state)` (R87). -/
  | sessionAckNext
  /-- `SESSION.DONE` (R88). -/
  | sessionDone
  /-- `SESSION.FAILED` (R89). -/
  | sessionFailed
  /-- `AWAIT.ENTER`: `enter_await(S)` (R95). -/
  | awaitEnter (wait : Wait)
  /-- `AWAIT.POLL`: the poll step (R97). -/
  | awaitPoll
  /-- `AWAIT.ACK`: the acknowledgment path (R98). -/
  | awaitAck
  /-- `AWAIT.TIMEOUT`: the timeout path (R99). -/
  | awaitTimeout
  /-- `TICK` (R96). -/
  | tick
  /-- `LINK.OPEN`: `open(device_identifier, baud_rate)` (R104). -/
  | linkOpen (device : String) (baud : Nat) (reply : LinkReply)
  /-- `LINK.WRITE`: `LinkWrite(bs)` (R105). -/
  | linkWrite (bs : List Byte)
  /-- `LINK.AVAIL`: `LinkAvail()` (R106). -/
  | linkAvail
  /-- `LINK.READ`: `LinkRead(n)` (R107). -/
  | linkRead (n : Nat)
  /-- `LINK.CLOSE`: `LinkClose()` (R108). -/
  | linkClose
  /-- `REMOTE.ENQUEUE`: `RemoteEnqueue(b)` (R109). -/
  | remoteEnqueue (b : Byte)
  /-- `MEM.READ`: `MemRead(i, n)` (R36). -/
  | memRead (i n : Nat)
  /-- `UPLOAD`: the whole session (R65), with the operands of a run script's header (R64) and, for each wait in
  turn, what the other agents do in it (log entry 15). -/
  | upload (startAddr : Word16) (timeoutMs : Word16) (image : List Byte) (waits : List WaitPlay)
  /-- `ACK.LINE`: the acknowledgment as the core decodes it out of received bytes (R62). -/
  | ackLine (bs : List Byte)
deriving DecidableEq, Repr

end Sys2Proof
end

