-- ==== Sys2Proof/Machine/Operands.lean ====
section
/-! DEFINITION. The operand forms: the kind byte, the legal payload lengths, `be16`, the checksum byte of a Block, the
size of the next chunk and the newline search (30_encoding.md R57, R58, R61; 42_segmenter.md R76; 44_ack_watchdog.md
R97). -/

namespace Sys2Proof

/-- The kind byte of a Block (R9, R58). -/
def Kind.byte : Kind → Byte
  | .start => 0x00
  | .data => 0x01
  | .trailer => 0xFF

/-- The kind a kind byte stands for; 0x02 to 0xFE stand for none (R60). -/
def Kind.ofByte? (b : Byte) : Option Kind :=
  if b = Kind.start.byte then some .start
  else if b = Kind.data.byte then some .data
  else if b = Kind.trailer.byte then some .trailer
  else none

/-- The payload lengths each kind allows (R58, R61). -/
def Kind.legalLen (kind : Kind) (n : Nat) : Bool :=
  match kind with
  | .start => n == Config.startLen
  | .data => decide (1 ≤ n ∧ n ≤ Config.chunkMax)
  | .trailer => n == 0

end Sys2Proof

namespace Sys2Proof.Machine

/-- `be16(a)`: two bytes, the most significant first (R13, R38). -/
def be16 (a : Word16) : List Byte :=
  [a.extractLsb' 8 8, a.extractLsb' 0 8]

/-- A number below 256 as one unsigned byte: the `length` field (R57). -/
def lenByte (n : Nat) : Byte :=
  BitVec.ofNat 8 n

/-- The `checksum` field of a Block: the modular sum from `kind` through the last payload byte for START and DATA
(R57, R70), the constant 0x00 for TRAILER (R57, R74 and 90_conflicts.md C1, C2). -/
def blockChecksum (kind : Kind) (payload : List Byte) : Byte :=
  match kind with
  | .start => checksum (kind.byte :: lenByte payload.length :: payload)
  | .data => checksum (kind.byte :: lenByte payload.length :: payload)
  | .trailer => 0x00

/-- `min(255, img_len - cursor)` of R76. -/
def chunkSize (imgLen cursor : Nat) : Nat :=
  min Config.chunkMax (imgLen - cursor)

/-- `NL in bs`: the byte search of R97, corner case (f); no decoding. -/
def hasNewline (bs : List Byte) : Bool :=
  bs.contains Config.newline

/-- The acknowledgment at the front of received bytes (R62): the content before the first `NL`, and what follows it. -/
def splitLine : List Byte → Option (List Byte × List Byte)
  | [] => none
  | b :: bs =>
    if b = Config.newline then some ([], bs)
    else
      match splitLine bs with
      | none => none
      | some (content, rest) => some (b :: content, rest)

end Sys2Proof.Machine
end

