-- ==== Sys2Proof/WellFormed.lean ====
section
/-! DEFINITION. Which operands an operation may carry, and the well-formed Blocks of 30_encoding.md R59. -/

namespace Sys2Proof

/-- A well-formed Block: R59, clause by clause, on the offsets of R52. -/
def isBlock (b : List Byte) : Bool :=
  decide (6 ≤ b.length)
    && b[0]? == some Config.head
    && b[1]? == some Config.sync
    && decide (b.length = 6 + (b.getD 3 0).toNat)
    && b[b.length - 1]? == some Config.trail
    && ((b[2]? == some Kind.start.byte && (b.getD 3 0).toNat == 2
          && b[6]? == some (Machine.checksum ((b.drop 2).take 4)))
      || (b[2]? == some Kind.data.byte && decide (1 ≤ (b.getD 3 0).toNat)
          && b[4 + (b.getD 3 0).toNat]? == some (Machine.checksum ((b.drop 2).take (2 + (b.getD 3 0).toNat))))
      || (b[2]? == some Kind.trailer.byte && (b.getD 3 0).toNat == 0 && b[4]? == some 0x00))

namespace Instr

/-- The operands the rules allow each operation: the payload lengths of R58 and R61 (the Framer's request carries at
most 511 bytes, R118), one whole Block for `LINK.WRITE` (R105), at least one byte for `LINK.READ` (R107), 1 to 255
bytes for `MEM.READ` (R42), a line ended by its only `NL` for `ACK.LINE` (R62). -/
def wellFormed : Instr → Bool
  | .frameStart payload => Kind.start.legalLen payload.length
  | .frameData payload => Kind.data.legalLen payload.length
  | .frameTrailer payload => Kind.trailer.legalLen payload.length
  | .frameInvalid kind payload => !kind.legalLen payload.length && decide (payload.length ≤ Config.framerLenMax)
  | .checksum _ => true
  | .segNext => true
  | .hostStart _ _ _ => true
  | .hostReset => true
  | .sessionIdle => true
  | .sessionSendStart => true
  | .sessionSendData => true
  | .sessionNoData => true
  | .sessionSendTrailer => true
  | .sessionAckNext => true
  | .sessionDone => true
  | .sessionFailed => true
  | .awaitEnter _ => true
  | .awaitPoll => true
  | .awaitAck => true
  | .awaitTimeout => true
  | .tick => true
  | .linkOpen _ _ _ => true
  | .linkWrite bs => isBlock bs
  | .linkAvail => true
  | .linkRead n => decide (1 ≤ n)
  | .linkClose => true
  | .remoteEnqueue _ => true
  | .memRead _ n => decide (1 ≤ n) && decide (n ≤ Config.chunkMax)
  | .upload _ _ _ _ => true
  | .ackLine bs => (Machine.splitLine bs).any fun p => p.2.isEmpty

end Instr

end Sys2Proof
end

