-- ==== Sys2Proof/Decode.lean ====
section
/-! DEFINITION. The decoder of the encoded operations (the three Block rows of the opcode table) and, after it, the
encoder (30_encoding.md R52 to R61), with the host's `decodeTableWord`. An encoded operation is a Block, or a request
of the stand-alone Framer in wire order (R118): the Block without the checksum and trailer that the Framer makes
(log entry 10). -/

namespace Sys2Proof

/-- Why bytes are no encoded operation. -/
inductive DecodeError where
  /-- Fewer than the four bytes head, sync, kind, length. -/
  | tooShort
  /-- The first byte is not 0x55 (R52). -/
  | badHead
  /-- The second byte is not 0x3C (R52). -/
  | badSync
  /-- A kind byte 0x02 to 0xFE (R60). -/
  | reservedKind (b : Byte)
  /-- Fewer payload bytes than the length byte says (R54). -/
  | payloadCut
  /-- Neither a request (4 + length bytes) nor a Block (6 + length bytes, R55). -/
  | wrongTotal
  /-- A whole Block whose length its kind does not allow (R61). -/
  | illegalLength
  /-- A whole Block with another checksum byte than R57 gives. -/
  | badChecksum
  /-- A whole Block whose last byte is not 0x55 (R52). -/
  | badTrailer
deriving DecidableEq, Repr

/-- The operation a Framer request is: `frame(kind, payload)`, or `FRAME.INVALID` where the kind does not allow the
length (R61, R75). -/
def requestOf (kind : Kind) (payload : List Byte) : Instr :=
  if kind.legalLen payload.length then
    match kind with
    | .start => .frameStart payload
    | .data => .frameData payload
    | .trailer => .frameTrailer payload
  else .frameInvalid kind payload

/-- What stands after the payload: nothing (a request), or the checksum and trailer of a whole Block, which must be
the ones R57 and R52 give. -/
def decodeTail (kind : Kind) (payload tail : List Byte) : Except DecodeError Instr :=
  match tail with
  | [] => .ok (requestOf kind payload)
  | [cks, trail] =>
    if kind.legalLen payload.length = false then .error .illegalLength
    else if cks ≠ Machine.blockChecksum kind payload then .error .badChecksum
    else if trail ≠ Config.trail then .error .badTrailer
    else .ok (requestOf kind payload)
  | _ => .error .wrongTotal

/-- The bytes after head, sync, kind and length: the length byte, not a sentinel, says where the payload ends
(R55, R56). -/
def decodeBody (kind : Kind) (len : Nat) (rest : List Byte) : Except DecodeError Instr :=
  if rest.length < len then .error .payloadCut
  else decodeTail kind (rest.take len) (rest.drop len)

/-- The decoder: total on any bytes. -/
def decode : List Byte → Except DecodeError Instr
  | head :: sync :: kindByte :: len :: rest =>
    if head ≠ Config.head then .error .badHead
    else if sync ≠ Config.sync then .error .badSync
    else
      match Kind.ofByte? kindByte with
      | none => .error (.reservedKind kindByte)
      | some kind => decodeBody kind len.toNat rest
  | _ => .error .tooShort

/-- The layout of R52, field by field, for a kind and payload. -/
def layoutBlock (kind : Kind) (payload : List Byte) : List Byte :=
  [Config.head, Config.sync, kind.byte, Machine.lenByte payload.length] ++ payload
    ++ [Machine.blockChecksum kind payload, Config.trail]

/-- A request of the stand-alone Framer in wire order: R118's kind, length and payload behind the two sentinels. -/
def layoutRequest (kind : Kind) (payload : List Byte) : List Byte :=
  [Config.head, Config.sync, kind.byte, Machine.lenByte payload.length] ++ payload

/-- The encoder: the Block of each row that has an encoding (R58), and the request for `FRAME.INVALID` where its
length fits the length byte (no Block of it exists, R61). The other rows have no encoding. -/
def encode : Instr → Option (List Byte)
  | .frameStart payload => some (layoutBlock .start payload)
  | .frameData payload => some (layoutBlock .data payload)
  | .frameTrailer payload => some (layoutBlock .trailer payload)
  | .frameInvalid kind payload =>
    if payload.length ≤ Config.chunkMax then some (layoutRequest kind payload) else none
  | .checksum _ => none
  | .segNext => none
  | .hostStart _ _ _ => none
  | .hostReset => none
  | .sessionIdle => none
  | .sessionSendStart => none
  | .sessionSendData => none
  | .sessionNoData => none
  | .sessionSendTrailer => none
  | .sessionAckNext => none
  | .sessionDone => none
  | .sessionFailed => none
  | .awaitEnter _ => none
  | .awaitPoll => none
  | .awaitAck => none
  | .awaitTimeout => none
  | .tick => none
  | .linkOpen _ _ _ => none
  | .linkWrite _ => none
  | .linkAvail => none
  | .linkRead _ => none
  | .linkClose => none
  | .remoteEnqueue _ => none
  | .memRead _ _ => none
  | .upload _ _ _ _ => none
  | .ackLine _ => none

/-- Byte `k` of an instruction word numbered as the opcode table numbers it: the first word is the first four bytes
read big-endian (R58), so byte 0 is bits 31 to 24; the bytes after it count on from bit 32. -/
def tableByte (w k : Nat) : Byte :=
  if k < 4 then BitVec.ofNat 8 (w / 2 ^ (8 * (3 - k))) else BitVec.ofNat 8 (w / 2 ^ (8 * k))

/-- Bytes `k` to `k + n - 1` of the word. -/
def tableBytes (w k : Nat) : Nat → List Byte
  | 0 => []
  | n + 1 => tableByte w k :: tableBytes w (k + 1) n

/-- The bytes of the instruction whose word is `w`: the `nbits` bits of the row and, above them, operand bytes of
zeros, as many as its length byte asks for. -/
def layoutTableWord (nbits w : Nat) : List Byte :=
  let bits := w % 2 ^ nbits
  tableBytes bits 0 (max (4 + (tableByte bits 3).toNat) ((nbits + 7) / 8))

/-- What the decoder reads from the instruction whose bits are `w`. -/
def decodeTableWord (nbits w : Nat) : Option Instr :=
  match decode (layoutTableWord nbits w) with
  | .ok i => some i
  | .error _ => none

end Sys2Proof
end

