-- ==== Sys2Proof/Machine/State.lean ====
section
/-! DEFINITION. The state of the machine: the core's registers (10_state.md R18), the environment the core observes
(R32), the working registers and ports of the clocked refinement (R27, R112), the stand-alone Framer (R118), the pending
steps of the agents, and the reasons a step can stop. -/

namespace Sys2Proof.Machine

/-- The Image space: byte offsets and their bytes, offsets strictly rising; an offset that is not listed holds no
value (20_memory.md R34 to R36). -/
abbrev Memory := List Host.Cell

/-- The session state register, nine values (R20). -/
inductive SessionState where
  | idle
  | sendingStart
  | awaitingStartAck
  | sendingData
  | awaitingDataAck
  | sendingTrailer
  | awaitingTrailerAck
  | done
  | failed
deriving DecidableEq, Repr

/-- The error kinds (R28, 60_exceptions.md R120). -/
inductive ErrKind where
  | none
  | invalidPayloadSize
  | noAcknowledgment
  | linkUnavailable
  | invalidInput
deriving DecidableEq, Repr

/-- What a function-like operation leaves when it is run on its own (log entry 9). -/
inductive Answer where
  /-- Nothing was asked in this step. -/
  | none
  /-- `frame` returned a Block (R72 to R74). -/
  | block (bs : List Byte)
  /-- `frame` failed with `InvalidPayloadSize`: the output `fr_invalid` is 1 and no byte is produced (R75, R118). -/
  | invalidPayloadSize
  /-- `checksum` (R67). -/
  | byte (b : Byte)
  /-- `seg_next`: none, or a chunk (R76). -/
  | chunk (c : Option (List Byte))
  /-- `next(state)` (R87). -/
  | session (next : SessionState)
  /-- `LinkAvail()` (R106), or the `count_written` of `LinkWrite` (R105). -/
  | count (n : Nat)
  /-- `LinkRead(n)` (R107) or `MemRead(i, n)` (R36). -/
  | bytes (bs : List Byte)
  /-- `open` failed: the caller raises `LinkUnavailable` (R104). -/
  | linkUnavailable
  /-- The acknowledgment line decoded, without its `NL`; none where there is no `NL` (R62). -/
  | line (content : Option (List Byte))
deriving DecidableEq, Repr

/-- A step of the environment outside the core that both levels share. -/
inductive EnvEvent where
  /-- One byte arrives from the remote end (R109). -/
  | rx (b : Byte)
  /-- The host opens the Link (R104). -/
  | openLink (device : String) (baud : Nat) (reply : LinkReply)
  /-- The host closes the Link, in `Done` (R88, R111). -/
  | closeLink
  /-- The host loads the Image (70_reset_and_hazards.md R137). -/
  | loadImage (image : List Byte)
deriving DecidableEq, Repr

/-- One step of an agent at the transaction level (00_scope.md R15), the lines of a run script (R64), and the two ways
of asking the stand-alone Framer (R118). -/
inductive Event where
  /-- One step of the core: whichever of its rules is enabled (R81). -/
  | core
  /-- One step of the time base (R96). -/
  | tick
  /-- The host's start command (R110). -/
  | start (startAddr : Word16) (imgLen : Nat) (timeoutMs : Word16)
  /-- The host's reset (R135). -/
  | reset
  | env (e : EnvEvent)
  /-- A request of the stand-alone Framer by kind and payload (R118). -/
  | framerRequest (kind : Kind) (payload : List Byte)
  /-- A request of the stand-alone Framer given in its encoding. -/
  | framerWord (bs : List Byte)
deriving DecidableEq, Repr

/-- The input ports of one clock cycle (R112). `link_open_i`, `img_data`, `rx_count` and `rx_data` are read from the
environment state. -/
structure ClockIn where
  rst : Bool
  start : Bool
  startAddrI : Word16
  imgLenI : Nat
  timeoutMsI : Word16
  txReady : Bool
  tickMs : Bool
deriving DecidableEq, Repr

/-- The input ports of one cycle of the stand-alone Framer (R118): reset, a request (`fr_kind` with the payload bytes,
`fr_len` of them, 0 to 511) where one is made, and the `tx_ready` of its transmit port. -/
structure FramerIn where
  rst : Bool
  request : Option (Kind × List Byte)
  txReady : Bool
deriving DecidableEq, Repr

/-- The sub-block `serial_frame_encoder` built on its own (R118): a unit beside the composed core, which shares no state
with it. DESIGN CHOICE: the cycles of its answer (log entry 34). -/
inductive FramerUnit where
  /-- No request is being answered. -/
  | idle
  /-- The bytes of the Block still to transfer. -/
  | sending (rest : List Byte)
  /-- The one cycle of `fr_invalid` = 1. -/
  | invalid
deriving DecidableEq, Repr

/-- One entry of a clocked schedule: a step of the environment, one cycle of the core's `clk`, or one cycle of the
stand-alone Framer. -/
inductive CycleEvent where
  | env (e : EnvEvent)
  | clk (inputs : ClockIn)
  | framer (inputs : FramerIn)
deriving DecidableEq, Repr

/-- The steps still to come. A run is at one level: transaction steps (normative, D2) or clock cycles (R119)
(log entries 1 and 2). -/
inductive Schedule where
  | steps (es : List Event)
  | cycles (cs : List CycleEvent)
deriving DecidableEq, Repr

/-- The whole state. -/
structure State where
  /-- `state` (R20). -/
  state : SessionState
  /-- `start_addr` (R22). -/
  startAddr : Word16
  /-- `img_len` (R23), `CURSOR_W` open (log entry 7). -/
  imgLen : Nat
  /-- `timeout_ms` (R24). -/
  timeoutMs : Word16
  /-- `cursor` (R21). -/
  cursor : Nat
  /-- `wd_elapsed` (R25). -/
  wdElapsed : Word16
  /-- `rxbuf` (R26). -/
  rxbuf : List Byte
  /-- `err` (R28). -/
  err : ErrKind
  /-- `blk_kind` (R27). -/
  blkKind : Byte
  /-- `blk_len` (R27). -/
  blkLen : Byte
  /-- `cks_acc` (R27). -/
  cksAcc : Byte
  /-- `byte_idx` (R27). -/
  byteIdx : BitVec 9
  /-- The drain of R115: none between drains, `some (k + 1)` with k + 1 bytes still to pop, `some 0` in the cycle that
  evaluates `NL in rxbuf` (log entry 18). -/
  drain : Option Nat
  /-- `Img` (R32, R35). -/
  img : Memory
  /-- `link.open` (R32). -/
  linkOpen : Bool
  /-- The device identifier the Link was opened with (R104). -/
  linkDevice : String
  /-- The baud rate the Link was opened with (R10, R104). -/
  linkBaud : Nat
  /-- `link.rxq` (R32), oldest first. -/
  rxq : List Byte
  /-- `link.txlog` (R32), oldest write first. -/
  txlog : List (List Byte)
  /-- The bytes transferred so far of the write in progress (R114). -/
  txPart : List Byte
  /-- The transmit byte stream (20_memory.md R34): every byte handed to the Link, oldest first. -/
  wire : List Byte
  /-- `diag` (R32): the acknowledgment lines echoed so far. -/
  diag : List (List Byte)
  /-- The stand-alone Framer (R118; log entry 34). -/
  framer : FramerUnit
  /-- The model's own: the answer of a function-like operation run on its own in this step (log entry 9). -/
  answer : Answer
  /-- The model's own: the counter the free values are drawn with (log entry 28). -/
  freeCtr : Nat
  /-- The model's own: the pending steps of the agents (log entry 2). -/
  schedule : Schedule
deriving DecidableEq, Repr

/-- Why a step has no next state although its operation has a meaning elsewhere. -/
inductive Fault where
  /-- A core step or sub-step was taken in a state in which its rule is not enabled (`requires`, R81): raised by the
  SESSION and AWAIT operations. Safe: the hardware takes no such step. -/
  | notEnabled
  /-- The Framer failed inside a run, which R122 shows cannot happen (U19: a model fault, never `Failed`): raised by
  `SESSION.SEND_START`, `SESSION.SEND_DATA`, `SESSION.SEND_TRAILER`. Safe. -/
  | invalidPayloadInRun
deriving DecidableEq, Repr

/-- Why the model gives a step no meaning. -/
inductive Refusal where
  /-- The operation has no meaning yet. Safe. -/
  | notModelled (mnemonic : String)
  /-- A Link operation while the Link is closed (U7, R105, R109): raised by the LINK operations, `REMOTE.ENQUEUE` and
  the core steps that use the Link. Safe. -/
  | linkClosed
  /-- `LinkRead` of no byte or of more than the queue holds (R107, U7). Safe. -/
  | readBeyondQueue
  /-- `MemRead` of no byte or outside the Image (R36, U10): never zeros. Safe. -/
  | readOutsideImage
  /-- A host step that breaks a duty of R111 (U5): opening the Link or loading the Image during a run, closing the Link
  anywhere but in `Done`. Safe. -/
  | hostDutyBroken
  /-- Bytes that are neither a Block nor a Framer request (R59, R60, U13): raised by the fetch. Safe. -/
  | undecodable
deriving DecidableEq, Repr

/-- The outcome of one step of this machine. -/
abbrev Result := Host.Outcome State Fault Refusal

/-- The machine right after reset (R33, R135): `state` = `Idle`, `cursor` = 0, `err` = `None`, `rxbuf` empty,
`wd_elapsed` = 0. DESIGN CHOICE: the registers R33 calls unspecified hold zero (log entries 4 and 5), the environment
holds nothing and the Link is closed (log entry 6), the stand-alone Framer answers no request (log entry 34), no step is
scheduled (log entry 2). -/
def State.reset : State where
  state := .idle
  startAddr := 0
  imgLen := 0
  timeoutMs := 0
  cursor := 0
  wdElapsed := 0
  rxbuf := []
  err := .none
  blkKind := 0
  blkLen := 0
  cksAcc := 0
  byteIdx := 0
  drain := none
  img := []
  linkOpen := false
  linkDevice := ""
  linkBaud := Config.defaultBaud
  rxq := []
  txlog := []
  txPart := []
  wire := []
  diag := []
  framer := .idle
  answer := .none
  freeCtr := 0
  schedule := .steps []

end Sys2Proof.Machine
end

