-- ==== Sys2Proof/Machine/Flags.lean ====
section
/-! DEFINITION. The status outputs and the numeric codes of states and error kinds (10_state.md R20, R28, R29), and the
classes of states the rules speak of. There are no condition codes. -/

namespace Sys2Proof.Machine

/-- The code of a state (R20). -/
def SessionState.code : SessionState → BitVec 4
  | .idle => 0
  | .sendingStart => 1
  | .awaitingStartAck => 2
  | .sendingData => 3
  | .awaitingDataAck => 4
  | .sendingTrailer => 5
  | .awaitingTrailerAck => 6
  | .done => 7
  | .failed => 8

/-- The code of an error kind (R28). -/
def ErrKind.code : ErrKind → BitVec 3
  | .none => 0
  | .invalidPayloadSize => 1
  | .noAcknowledgment => 2
  | .linkUnavailable => 3
  | .invalidInput => 4

/-- The wait an `Awaiting*` state is in; none in the other states (R20). -/
def SessionState.wait? : SessionState → Option Wait
  | .awaitingStartAck => some .startAck
  | .awaitingDataAck => some .dataAck
  | .awaitingTrailerAck => some .trailerAck
  | .idle => none
  | .sendingStart => none
  | .sendingData => none
  | .sendingTrailer => none
  | .done => none
  | .failed => none

/-- The state is one of the three `Awaiting*` states. -/
def SessionState.isAwaiting (st : SessionState) : Bool :=
  st.wait?.isSome

/-- The state is one of the three `Sending*` states (R20). -/
def SessionState.isSending : SessionState → Bool
  | .sendingStart => true
  | .sendingData => true
  | .sendingTrailer => true
  | .idle => false
  | .awaitingStartAck => false
  | .awaitingDataAck => false
  | .awaitingTrailerAck => false
  | .done => false
  | .failed => false

/-- The output `done` (R29). -/
def State.doneOut (s : State) : Bool :=
  s.state == .done

/-- The output `failed` (R29). -/
def State.failedOut (s : State) : Bool :=
  s.state == .failed

/-- The output `busy`: the state is none of `Idle`, `Done`, `Failed` (R29). -/
def State.busy (s : State) : Bool :=
  s.state != .idle && s.state != .done && s.state != .failed

/-- The output `fr_invalid` of the stand-alone Framer, asked for one answer (R75, R118; log entry 9). It is no output of the
composed core, whose own is in `Ports`. -/
def State.frInvalid (s : State) : Bool :=
  s.answer == .invalidPayloadSize

/-- The condition of the timeout, compared unsigned (R97, R69). -/
def State.timeUp (s : State) : Bool :=
  s.timeoutMs.ule s.wdElapsed

end Sys2Proof.Machine

namespace Sys2Proof

/-- The `Awaiting*` state of a wait. -/
def Wait.session : Wait → Machine.SessionState
  | .startAck => .awaitingStartAck
  | .dataAck => .awaitingDataAck
  | .trailerAck => .awaitingTrailerAck

/-- The sending state whose step enters the wait (R80, R83, R84, R86). -/
def Wait.sender : Wait → Machine.SessionState
  | .startAck => .sendingStart
  | .dataAck => .sendingData
  | .trailerAck => .sendingTrailer

/-- `next(state)`: the state an acknowledgment leads to (R87). -/
def Wait.next : Wait → Machine.SessionState
  | .startAck => .sendingData
  | .dataAck => .sendingData
  | .trailerAck => .done

end Sys2Proof
end

