-- ==== Sys2Proof/Machine/Ops.lean ====
section
/-! DEFINITION. The shared operations over the Image, the Link and the registers (20_memory.md, 45_link_and_ports.md
part 1), the entry to `Failed` (60_exceptions.md R126), which is this hardware's one exception, and beside it the
reset, the only way back (R127, R135). -/

namespace Sys2Proof.Machine

/-! ### The Image -/

/-- The offsets of a memory rise strictly from above `low`. -/
def Memory.risesFrom : Nat → Memory → Bool
  | _, [] => true
  | low, (a, _) :: m => decide (low ≤ a) && Memory.risesFrom (a + 1) m

/-- The canonical form of the Image: offsets strictly rising. An unlisted offset holds no value, so no entry can equal
what it reads as. -/
def Memory.wf (m : Memory) : Bool :=
  Memory.risesFrom 0 m

/-- One byte of the Image, or none where the Image has no such offset (R36: never zero). -/
def Memory.read : Memory → Nat → Option Byte
  | [], _ => none
  | (a, b) :: m, i => if a = i then some b else Memory.read m i

/-- The `n` bytes from offset `i` on, in increasing offset (R36); none if one of them is not there. -/
def Memory.readMany (m : Memory) (i : Nat) : Nat → Option (List Byte)
  | 0 => some []
  | n + 1 =>
    match m.read i, Memory.readMany m (i + 1) n with
    | some b, some bs => some (b :: bs)
    | _, _ => none

/-- The Image holding a byte sequence from offset `i` on. -/
def Memory.ofBytesAt (i : Nat) : List Byte → Memory
  | [] => []
  | b :: bs => (i, b) :: Memory.ofBytesAt (i + 1) bs

/-- The Image of a byte sequence: offsets from 0, contiguous (R35, R44). -/
def Memory.ofBytes (bs : List Byte) : Memory :=
  Memory.ofBytesAt 0 bs

/-- `MemRead(i, n)` (R36): for `n` >= 1 and `i + n` <= `img_len`; refused outside, never zeros. -/
def memRead (i n : Nat) (s : State) : Except Refusal (List Byte) :=
  if n = 0 ∨ s.imgLen < i + n then .error .readOutsideImage
  else
    match s.img.readMany i n with
    | some bs => .ok bs
    | none => .error .readOutsideImage

/-- The host loads an Image (R137). -/
def State.loadImage (image : List Byte) (s : State) : State :=
  { s with img := Memory.ofBytes image }

/-! ### Outcomes -/

/-- The outcome of a fallible operation that gives a next state. -/
def Result.ofExcept : Except Refusal State → Result
  | .ok s => .next s
  | .error r => .refused r

/-- One outcome after another: the first fault or refusal ends. -/
def Result.andThen (r : Result) (f : State → Result) : Result :=
  match r with
  | .next s => f s
  | .fault x => .fault x
  | .refused x => .refused x

/-! ### The Link -/

/-- A write as the Link records it: one entry of `link.txlog`, its bytes on the wire in order (R105). -/
def State.pushWrite (bs : List Byte) (s : State) : State :=
  { s with txlog := s.txlog ++ [bs], wire := s.wire ++ bs }

/-- `LinkWrite(bs)` (R105): requires an open Link; the whole Block is taken, so `count_written` = `len(bs)`. -/
def linkWrite (bs : List Byte) (s : State) : Except Refusal (Nat × State) :=
  if s.linkOpen then .ok (bs.length, s.pushWrite bs) else .error .linkClosed

/-- `LinkAvail()` (R106). -/
def linkAvail (s : State) : Except Refusal Nat :=
  if s.linkOpen then .ok s.rxq.length else .error .linkClosed

/-- The receive queue without its oldest `n` bytes. -/
def State.dropRx (n : Nat) (s : State) : State :=
  { s with rxq := s.rxq.drop n }

/-- `LinkRead(n)` (R107): the oldest `n` bytes, removed; requires 1 <= n <= len(link.rxq). -/
def linkRead (n : Nat) (s : State) : Except Refusal (List Byte × State) :=
  if s.linkOpen then
    if n = 0 ∨ s.rxq.length < n then .error .readBeyondQueue
    else .ok (s.rxq.take n, s.dropRx n)
  else .error .linkClosed

/-- `link.open` <- 0 (R108). DESIGN CHOICE: the bytes still queued stay in `link.rxq` (log entry 33). -/
def State.closeLink (s : State) : State :=
  { s with linkOpen := false }

/-- `LinkClose()` (R108); a second close is refused (U7). -/
def linkClose (s : State) : Except Refusal State :=
  if s.linkOpen then .ok s.closeLink else .error .linkClosed

/-- `open` as the core sees it (R104): on success the Link is open and its queue holds any content, that of the reply
(U8). DESIGN CHOICE: on a Link that is already open the new device, baud rate and queue replace the old (log entry
32). -/
def State.openLink (device : String) (baud : Nat) (queued : List Byte) (s : State) : State :=
  { s with linkOpen := true, linkDevice := device, linkBaud := baud, rxq := queued }

/-- `link.rxq` gains a byte (R109). -/
def State.pushRx (b : Byte) (s : State) : State :=
  { s with rxq := s.rxq ++ [b] }

/-- `RemoteEnqueue(b)` (R109): requires an open Link. -/
def remoteEnqueue (b : Byte) (s : State) : Except Refusal State :=
  if s.linkOpen then .ok (s.pushRx b) else .error .linkClosed

/-! ### Register updates -/

/-- `state <- S`: the control transfer (R14, R20). -/
def State.goto (st : SessionState) (s : State) : State :=
  { s with state := st }

/-- The answer of an operation run on its own. -/
def State.answering (a : Answer) (s : State) : State :=
  { s with answer := a }

/-- `rxbuf <- rxbuf ++ bs` (R97). -/
def State.pushRxbuf (bs : List Byte) (s : State) : State :=
  { s with rxbuf := s.rxbuf ++ bs }

/-- `cursor <- cursor + n` (R84). -/
def State.advance (n : Nat) (s : State) : State :=
  { s with cursor := s.cursor + n }

/-- `enter_await(S)` (R95). -/
def State.enterAwait (w : Wait) (s : State) : State :=
  { s with wdElapsed := 0, rxbuf := [], state := w.session }

/-- The acknowledgment path (R98): echo, empty the buffer, go on. -/
def State.acknowledge (w : Wait) (s : State) : State :=
  { s with diag := s.diag ++ [s.rxbuf], rxbuf := [], state := w.next }

/-- `wd_elapsed` plus one tick, saturating at 2^16 - 1 (R96, R69). -/
def saturatingInc (v : Word16) : Word16 :=
  if v = BitVec.allOnes 16 then v else v + 1

/-- One tick: counted in the `Awaiting*` states only (R96). -/
def State.tick (s : State) : State :=
  if s.state.isAwaiting then { s with wdElapsed := saturatingInc s.wdElapsed } else s

/-- The start command's latch (R110). -/
def State.latchStart (startAddr : Word16) (imgLen : Nat) (timeoutMs : Word16) (s : State) : State :=
  { s with startAddr := startAddr, imgLen := imgLen, timeoutMs := timeoutMs, cursor := 0, state := .sendingStart }

/-! ### The exception and the way back -/

/-- The registers of the failure transition (R126): `err` <- 2, `rxbuf` <- `[]`, `link.open` <- 0, `state` <- `Failed`.
It saves nothing else; the other registers keep their values. `link.rxq` is left unread (95_test_vectors.md L2.6, rows 5
and 7); that the closed Link goes on holding those bytes is a DESIGN CHOICE (log entry 33). -/
def State.enterFailed (s : State) : State :=
  { s with err := .noAcknowledgment, rxbuf := [], linkOpen := false, state := .failed }

/-- `raise NoAcknowledgment` (R99): the failure transition, with its `LinkClose()`. -/
def raiseNoAcknowledgment (s : State) : Except Refusal State :=
  if s.linkOpen then .ok s.enterFailed else .error .linkClosed

/-- The working registers hold no specified value: each takes a free one (R27, R33; log entry 28). -/
def State.freeWork (s : State) : State :=
  { s with
    blkKind := Config.freeBlkKind s.freeCtr
    blkLen := Config.freeBlkLen s.freeCtr
    cksAcc := Config.freeCksAcc s.freeCtr
    byteIdx := Config.freeByteIdx s.freeCtr
    freeCtr := s.freeCtr + 1 }

/-- Reset of the registers (R33, R135): the five with a reset value take it, the unspecified ones take free values.
No Link operation; a Block half sent is dropped from the core's view and stays on the wire (R136). -/
def State.resetRegs (s : State) : State :=
  { s with
    state := .idle
    cursor := 0
    err := .none
    rxbuf := []
    wdElapsed := 0
    startAddr := Config.freeStartAddr s.freeCtr
    imgLen := Config.freeImgLen s.freeCtr
    timeoutMs := Config.freeTimeoutMs s.freeCtr
    drain := none
    txPart := []
    blkKind := Config.freeBlkKind s.freeCtr
    blkLen := Config.freeBlkLen s.freeCtr
    cksAcc := Config.freeCksAcc s.freeCtr
    byteIdx := Config.freeByteIdx s.freeCtr
    freeCtr := s.freeCtr + 1 }

end Sys2Proof.Machine
end

