-- ==== Sys2Proof/Machine/Link.lean ====
section
/-! DEFINITION. The operations on the Link and the remote end: LINK.OPEN, LINK.WRITE, LINK.AVAIL, LINK.READ,
LINK.CLOSE, REMOTE.ENQUEUE, ACK.LINE (45_link_and_ports.md R103 to R109, 30_encoding.md R62). -/

namespace Sys2Proof.Machine

/-- LINK.OPEN (R104): performed by the caller; on an error the caller raises `LinkUnavailable` and nothing in the core
changes (R120, R123). DESIGN CHOICE: on a Link that is already open a success replaces what it was opened with, an error
leaves it open as it was (log entry 32). -/
def execLinkOpen (device : String) (baud : Nat) (reply : LinkReply) (s : State) : Result :=
  match reply with
  | .opened queued => .next (s.openLink device baud queued)
  | .unavailable => .next (s.answering .linkUnavailable)

/-- LINK.WRITE (R105): the answer is `count_written`. -/
def execLinkWrite (bs : List Byte) (s : State) : Result :=
  match linkWrite bs s with
  | .ok (n, t) => .next (t.answering (.count n))
  | .error r => .refused r

/-- LINK.AVAIL (R106). -/
def execLinkAvail (s : State) : Result :=
  match linkAvail s with
  | .ok n => .next (s.answering (.count n))
  | .error r => .refused r

/-- LINK.READ (R107). -/
def execLinkRead (n : Nat) (s : State) : Result :=
  match linkRead n s with
  | .ok (bs, t) => .next (t.answering (.bytes bs))
  | .error r => .refused r

/-- LINK.CLOSE (R108). -/
def execLinkClose (s : State) : Result :=
  Result.ofExcept (linkClose s)

/-- REMOTE.ENQUEUE (R109). -/
def execRemoteEnqueue (b : Byte) (s : State) : Result :=
  Result.ofExcept (remoteEnqueue b s)

/-- ACK.LINE (R62): received bytes hold an acknowledgment exactly when they hold an `NL`; its content, which is not
checked (R143), is what stands before the first one. -/
def execAckLine (bs : List Byte) (s : State) : Result :=
  .next (s.answering (.line ((splitLine bs).map Prod.fst)))

end Sys2Proof.Machine
end

