-- ==== Sys2Proof/Machine/Await.lean ====
section
/-! DEFINITION. The sub-block `ack_timeout_watchdog`: AWAIT.ENTER, AWAIT.POLL, AWAIT.ACK, AWAIT.TIMEOUT, and the time
base: TICK (44_ack_watchdog.md). -/

namespace Sys2Proof.Machine

/-- The second half of the poll step (R97), after the timeout test: probe, read exactly the probed count, search the
buffer for `NL`. -/
def probe (w : Wait) (s : State) : Result :=
  match linkAvail s with
  | .error r => .refused r
  | .ok 0 => .next s
  | .ok n@(_ + 1) =>
    match linkRead n s with
    | .error r => .refused r
    | .ok (bs, t) =>
      let u := t.pushRxbuf bs
      if hasNewline u.rxbuf then .next (u.acknowledge w) else .next u

/-- AWAIT.POLL, the poll step (R97): the timeout test first, so the timeout wins over a waiting acknowledgment (R125). -/
def execAwaitPoll (s : State) : Result :=
  match s.state.wait? with
  | none => .fault .notEnabled
  | some w => if s.timeUp then Result.ofExcept (raiseNoAcknowledgment s) else probe w s

/-- AWAIT.ENTER, `enter_await(S)` (R95): the last action of the sending step of `S`, so enabled in that sending state
(R80; log entry 11). -/
def execAwaitEnter (w : Wait) (s : State) : Result :=
  if s.state = w.sender then .next (s.enterAwait w) else .fault .notEnabled

/-- AWAIT.ACK, the acknowledgment path (R98), a sub-step of the poll step. -/
def execAwaitAck (s : State) : Result :=
  match s.state.wait? with
  | none => .fault .notEnabled
  | some w => .next (s.acknowledge w)

/-- AWAIT.TIMEOUT, the timeout path (R99), a sub-step of the poll step. -/
def execAwaitTimeout (s : State) : Result :=
  match s.state.wait? with
  | none => .fault .notEnabled
  | some _ => Result.ofExcept (raiseNoAcknowledgment s)

/-- TICK (R96): always enabled. -/
def execTick (s : State) : Result :=
  .next s.tick

end Sys2Proof.Machine
end

