-- ==== Sys2Proof/Machine/Framer.lean ====
section
/-! DEFINITION. The sub-blocks Checksum and Framer: CHECKSUM, FRAME.START, FRAME.DATA, FRAME.TRAILER, FRAME.INVALID
(40_checksum.md, 41_framer.md), and the Framer built on its own (45_link_and_ports.md R118). Run on their own they answer and touch nothing
else (R71, R75, R118). -/

namespace Sys2Proof.Machine

/-- `frame(START, payload)` (R72); none is `InvalidPayloadSize` (R75). -/
def frameStart : List Byte → Option (List Byte)
  | [p0, p1] => some [0x55, 0x3C, 0x00, 0x02, p0, p1, checksum [0x00, 0x02, p0, p1], 0x55]
  | _ => none

/-- `frame(DATA, payload)` (R73). -/
def frameData (payload : List Byte) : Option (List Byte) :=
  let n := payload.length
  if n < 1 ∨ 255 < n then none
  else some ([0x55, 0x3C, 0x01, BitVec.ofNat 8 n] ++ payload ++ [checksum ([0x01, BitVec.ofNat 8 n] ++ payload), 0x55])

/-- `frame(TRAILER, payload)` (R74): the checksum byte is the constant 0x00. -/
def frameTrailer : List Byte → Option (List Byte)
  | [] => some [0x55, 0x3C, 0xFF, 0x00, 0x00, 0x55]
  | _ :: _ => none

/-- `frame(kind, payload)`: the Block, or none for `InvalidPayloadSize`. -/
def frame (kind : Kind) (payload : List Byte) : Option (List Byte) :=
  match kind with
  | .start => frameStart payload
  | .data => frameData payload
  | .trailer => frameTrailer payload

/-- What the stand-alone Framer answers: the Block, or `fr_invalid` with no byte produced (R75, R118). -/
def framerAnswer (kind : Kind) (payload : List Byte) : Answer :=
  match frame kind payload with
  | some bs => .block bs
  | none => .invalidPayloadSize

/-- FRAME.START (R72). -/
def execFrameStart (payload : List Byte) (s : State) : Result :=
  .next (s.answering (framerAnswer .start payload))

/-- FRAME.DATA (R73). -/
def execFrameData (payload : List Byte) (s : State) : Result :=
  .next (s.answering (framerAnswer .data payload))

/-- FRAME.TRAILER (R74). -/
def execFrameTrailer (payload : List Byte) (s : State) : Result :=
  .next (s.answering (framerAnswer .trailer payload))

/-- FRAME.INVALID (R75): the same request port; on an illegal payload length the answer is `InvalidPayloadSize`. -/
def execFrameInvalid (kind : Kind) (payload : List Byte) (s : State) : Result :=
  .next (s.answering (framerAnswer kind payload))

/-- CHECKSUM (R67). -/
def execChecksum (bs : List Byte) (s : State) : Result :=
  .next (s.answering (.byte (checksum bs)))

/-! ### The stand-alone Framer -/

/-- The state a request leads to: the Block is to be sent, or `fr_invalid` is raised (R75, R118). -/
def FramerUnit.accept (kind : Kind) (payload : List Byte) : FramerUnit :=
  match frame kind payload with
  | some bs => .sending bs
  | none => .invalid

/-- The state after a cycle in which no Block is in progress: a request is taken up at once. -/
def FramerUnit.take : Option (Kind × List Byte) → FramerUnit
  | none => .idle
  | some (kind, payload) => FramerUnit.accept kind payload

/-- The state with those bytes still to transfer. -/
def FramerUnit.remaining : List Byte → FramerUnit
  | [] => .idle
  | b :: bs => .sending (b :: bs)

/-- One cycle of the stand-alone Framer (R118). DESIGN CHOICE: reset drops what is in progress; a request made while a
Block is in progress is not taken; one byte is transferred where `tx_ready` = 1 (log entry 34). -/
def FramerUnit.cycle (inputs : FramerIn) (u : FramerUnit) : FramerUnit :=
  if inputs.rst then .idle
  else
    match u with
    | .idle => FramerUnit.take inputs.request
    | .invalid => FramerUnit.take inputs.request
    | .sending rest => if inputs.txReady then FramerUnit.remaining rest.tail else .sending rest

/-- The output ports of the stand-alone Framer: `tx_data` with `tx_last` where `tx_valid` = 1, and `fr_invalid`. -/
structure FramerPorts where
  tx : Option (Byte × Bool)
  frInvalid : Bool
deriving DecidableEq, Repr

/-- The ports in a cycle (R118): the next byte of the Block, marked where it is the last; `fr_invalid` with no byte; in
reset both strobes are 0, as in R113. -/
def FramerUnit.ports (inputs : FramerIn) (u : FramerUnit) : FramerPorts :=
  if inputs.rst then { tx := none, frInvalid := false }
  else
    match u with
    | .idle => { tx := none, frInvalid := false }
    | .invalid => { tx := none, frInvalid := true }
    | .sending rest => { tx := rest.head?.map fun b => (b, rest.tail.isEmpty), frInvalid := false }

/-- One cycle of the stand-alone Framer beside the core. -/
def State.clockFramer (inputs : FramerIn) (s : State) : State :=
  { s with framer := s.framer.cycle inputs }

/-- What the transmit port hands over in a run of cycles: the bytes of the cycles with `tx_valid` = `tx_ready` = 1, each
with its `tx_last`. -/
def FramerUnit.transfers : List FramerIn → FramerUnit → List (Byte × Bool)
  | [], _ => []
  | c :: cs, u =>
    (if c.txReady then (u.ports c).tx.toList else []) ++ FramerUnit.transfers cs (u.cycle c)

/-- The state after a run of cycles. -/
def FramerUnit.cycles : List FramerIn → FramerUnit → FramerUnit
  | [], u => u
  | c :: cs, u => FramerUnit.cycles cs (u.cycle c)

end Sys2Proof.Machine
end

