-- ==== Sys2Proof/Machine/Segmenter.lean ====
section
/-! DEFINITION. The sub-block `block_segmenter_fsm` and the Image read it uses: SEG.NEXT, MEM.READ (42_segmenter.md
R76, 20_memory.md R36). -/

namespace Sys2Proof.Machine

/-- `seg_next(cursor)` (R76): none at the end of the Image, else the next 1 to 255 bytes. `cursor` is not changed. -/
def segNext (s : State) : Except Refusal (Option (List Byte)) :=
  if s.cursor = s.imgLen then .ok none
  else
    match memRead s.cursor (chunkSize s.imgLen s.cursor) s with
    | .ok bs => .ok (some bs)
    | .error r => .error r

/-- SEG.NEXT (R76). -/
def execSegNext (s : State) : Result :=
  match segNext s with
  | .ok c => .next (s.answering (.chunk c))
  | .error r => .refused r

/-- MEM.READ (R36). -/
def execMemRead (i n : Nat) (s : State) : Result :=
  match memRead i n s with
  | .ok bs => .next (s.answering (.bytes bs))
  | .error r => .refused r

end Sys2Proof.Machine
end

