-- ==== Sys2Proof/Machine/Session.lean ====
section
/-! DEFINITION. The sub-block `transfer_session_controller`: the SESSION operations (43_session.md R82 to R89). -/

namespace Sys2Proof.Machine

/-- The write of a sending step and the entry to its wait, one atomic step: `LinkWrite(frame(kind, payload))`, then
`cursor` advanced by `n` (0 for START and TRAILER), then `enter_await(S)` (R83, R84, R86). The core does not look at
`count_written` (R105). -/
def sendBlock (kind : Kind) (payload : List Byte) (n : Nat) (w : Wait) (s : State) : Result :=
  match frame kind payload with
  | none => .fault .invalidPayloadInRun
  | some bs =>
    match linkWrite bs s with
    | .error r => .refused r
    | .ok (_, t) => .next ((t.advance n).enterAwait w)

/-- SESSION.IDLE (R82): the core does nothing and writes nothing. -/
def execSessionIdle (s : State) : Result :=
  if s.state = .idle then .next s else .fault .notEnabled

/-- SESSION.SEND_START (R83). -/
def execSessionSendStart (s : State) : Result :=
  if s.state = .sendingStart then sendBlock .start (be16 s.startAddr) 0 .startAck s else .fault .notEnabled

/-- SESSION.SEND_DATA (R84). -/
def execSessionSendData (s : State) : Result :=
  if s.state = .sendingData ∧ s.cursor < s.imgLen then
    match segNext s with
    | .error r => .refused r
    | .ok none => .fault .notEnabled
    | .ok (some chunk) => sendBlock .data chunk chunk.length .dataAck s
  else .fault .notEnabled

/-- SESSION.NO_DATA (R85): no write, no wait. -/
def execSessionNoData (s : State) : Result :=
  if s.state = .sendingData ∧ s.cursor = s.imgLen then .next (s.goto .sendingTrailer) else .fault .notEnabled

/-- SESSION.SEND_TRAILER (R86). -/
def execSessionSendTrailer (s : State) : Result :=
  if s.state = .sendingTrailer then sendBlock .trailer [] 0 .trailerAck s else .fault .notEnabled

/-- SESSION.ACK_NEXT (R87): the table `next(state)`, which has a row for the three `Awaiting*` states (log entry 17). -/
def execSessionAckNext (s : State) : Result :=
  match s.state.wait? with
  | none => .fault .notEnabled
  | some w => .next (s.answering (.session w.next))

/-- SESSION.DONE (R88): terminal, no Link operation. -/
def execSessionDone (s : State) : Result :=
  if s.state = .done then .next s else .fault .notEnabled

/-- SESSION.FAILED (R89): terminal, no Link operation. -/
def execSessionFailed (s : State) : Result :=
  if s.state = .failed then .next s else .fault .notEnabled

/-- The operation the core performs next: which rule `state` and `cursor`, its control position, enable (R80, R81). -/
def coreInstr (s : State) : Instr :=
  match s.state with
  | .idle => .sessionIdle
  | .sendingStart => .sessionSendStart
  | .awaitingStartAck => .awaitPoll
  | .sendingData => if s.cursor = s.imgLen then .sessionNoData else .sessionSendData
  | .awaitingDataAck => .awaitPoll
  | .sendingTrailer => .sessionSendTrailer
  | .awaitingTrailerAck => .awaitPoll
  | .done => .sessionDone
  | .failed => .sessionFailed

/-- One step of the core. -/
def coreStep (s : State) : Result :=
  match s.state with
  | .idle => execSessionIdle s
  | .sendingStart => execSessionSendStart s
  | .awaitingStartAck => execAwaitPoll s
  | .sendingData => if s.cursor = s.imgLen then execSessionNoData s else execSessionSendData s
  | .awaitingDataAck => execAwaitPoll s
  | .sendingTrailer => execSessionSendTrailer s
  | .awaitingTrailerAck => execAwaitPoll s
  | .done => execSessionDone s
  | .failed => execSessionFailed s

end Sys2Proof.Machine
end

