-- ==== Sys2Proof/Machine/HostCommands.lean ====
section
/-! DEFINITION. The host's commands HOST.START and HOST.RESET (45_link_and_ports.md R110, 70_reset_and_hazards.md R135)
and the composite UPLOAD (30_encoding.md R65). -/

namespace Sys2Proof.Machine

/-- HOST.START (R110): acts in `Idle` with the Link open; in any other case nothing changes. -/
def execHostStart (startAddr : Word16) (imgLen : Nat) (timeoutMs : Word16) (s : State) : Result :=
  if s.state = .idle ∧ s.linkOpen = true then .next (s.latchStart startAddr imgLen timeoutMs) else .next s

/-- HOST.RESET (R135): enabled at any time. -/
def execHostReset (s : State) : Result :=
  .next s.resetRegs

/-- The remote end sends a line, byte after byte (R109, `rx <bytes>` of R64). -/
def receive : List Byte → State → Result
  | [], s => .next s
  | b :: bs, s => Result.andThen (execRemoteEnqueue b s) (receive bs)

/-- `k` ticks (R96, `tick k` of R64). -/
def ticks : Nat → State → State
  | 0, s => s
  | k + 1, s => ticks k s.tick

/-- One wait of a whole session: the bytes arrive, the ticks pass, the core polls. A wait that this does not end has no
more bytes coming: the timeout passes and the core polls again (R97, R100; log entry 15). -/
def playWait (p : WaitPlay) (s : State) : Result :=
  Result.andThen (receive p.line s) fun t =>
    Result.andThen (execAwaitPoll (ticks p.ticks t)) fun u =>
      if u.state.isAwaiting then execAwaitPoll (ticks u.timeoutMs.toNat u) else .next u

/-- A session run to its terminal state, `fuel` transitions at most: the core's sending steps, and each wait as the
other agents play it; a wait beyond the list is silent. -/
def session : Nat → List WaitPlay → State → Result
  | 0, _, s => .next s
  | fuel + 1, ps, s =>
    if s.state.isAwaiting then
      Result.andThen (playWait (ps.headD { line := [], ticks := 0 }) s) (session fuel ps.tail)
    else if s.state.isSending then Result.andThen (coreStep s) (session fuel ps)
    else .next s

/-- UPLOAD (R65): the whole session. The Image is presented, the start command given, and the session runs to `Done` or
`Failed`: at most two transitions for each of the Data Blocks, fewer than the Image has bytes, and five for the rest.
Where the start command would be ignored (R90, R110) nothing changes. -/
def execUpload (startAddr timeoutMs : Word16) (image : List Byte) (waits : List WaitPlay) (s : State) : Result :=
  if s.state = .idle ∧ s.linkOpen = true then
    Result.andThen (execHostStart startAddr image.length timeoutMs (s.loadImage image))
      (session (2 * image.length + 6) waits)
  else .next s

end Sys2Proof.Machine
end

