-- ==== Sys2Proof/Machine/Clocked.lean ====
section
/-! DEFINITION. The clocked, byte-serial refinement: one cycle of `clk` on the same state, and the output ports
(45_link_and_ports.md R112 to R117). The transaction level of the other files is the normative one (R119). -/

namespace Sys2Proof.Machine

/-- The working registers at the start of a Block (R27: written before read within each Block; R114): the kind byte
and payload length of the Block the sending state sends, `byte_idx` = 0, `cks_acc` cleared. In `SendingData` with no chunk left
no Block starts, `min(255, img_len - cursor)` is not computed (R69) and the registers stay as unspecified as they were
(log entries 5 and 28). -/
def State.loadBlk (s : State) : State :=
  match s.state with
  | .sendingStart =>
    { s with blkKind := Kind.start.byte, blkLen := lenByte Config.startLen, cksAcc := 0, byteIdx := 0 }
  | .sendingData =>
    if s.cursor < s.imgLen then
      { s with blkKind := Kind.data.byte, blkLen := lenByte (chunkSize s.imgLen s.cursor), cksAcc := 0, byteIdx := 0 }
    else s
  | .sendingTrailer => { s with blkKind := Kind.trailer.byte, blkLen := 0, cksAcc := 0, byteIdx := 0 }
  | .idle => s
  | .awaitingStartAck => s
  | .awaitingDataAck => s
  | .awaitingTrailerAck => s
  | .done => s
  | .failed => s

/-- The core is sending a Block in this cycle (R114): a `Sending*` state, and in `SendingData` a chunk remains. -/
def State.sendsBlock (s : State) : Bool :=
  s.state.isSending && !(s.state == .sendingData && s.cursor == s.imgLen)

/-- The Image offset the core reads for payload byte `byte_idx - 4` (R114, R116). -/
def State.imgAddr (s : State) : Nat :=
  s.cursor + s.byteIdx.toNat - 4

/-- The payload byte at `byte_idx` (R114): of START the high then the low byte of `start_addr`, of DATA `img_data` at
`img_addr`; the Image answers below `img_len` only (R116). -/
def State.payloadByte? (s : State) : Option Byte :=
  match s.state with
  | .sendingStart => (be16 s.startAddr)[s.byteIdx.toNat - 4]?
  | .sendingData => if s.imgAddr < s.imgLen then s.img.read s.imgAddr else none
  | .sendingTrailer => none
  | .idle => none
  | .awaitingStartAck => none
  | .awaitingDataAck => none
  | .awaitingTrailerAck => none
  | .done => none
  | .failed => none

/-- `tx_data`: the byte at `byte_idx`, row by row of R114. -/
def State.txByte? (s : State) : Option Byte :=
  let i := s.byteIdx.toNat
  let n := s.blkLen.toNat
  if i = 0 then some Config.head
  else if i = 1 then some Config.sync
  else if i = 2 then some s.blkKind
  else if i = 3 then some s.blkLen
  else if i < 4 + n then s.payloadByte?
  else if i = 4 + n then some (if s.blkKind = Kind.trailer.byte then 0x00 else s.cksAcc)
  else some Config.trail

/-- `tx_last` (R114): the byte is the last of the write. -/
def State.txLast (s : State) : Bool :=
  s.byteIdx.toNat == 5 + s.blkLen.toNat

/-- `cks_acc` after the transfer of the byte `b`, row by row of R114. -/
def State.cksAfter (b : Byte) (s : State) : Byte :=
  let i := s.byteIdx.toNat
  if i < 2 then 0
  else if i = 2 then s.blkKind
  else if i < 4 + s.blkLen.toNat then s.cksAcc + b
  else s.cksAcc

/-- One byte handed over: on the wire, and counted. -/
def State.transferByte (b : Byte) (s : State) : State :=
  { s with
    wire := s.wire ++ [b]
    txPart := s.txPart ++ [b]
    cksAcc := s.cksAfter b
    byteIdx := s.byteIdx + 1 }

/-- The wait that follows the Block of a sending state (R80). -/
def SessionState.blockWait : SessionState → Wait
  | .sendingStart => .startAck
  | .sendingData => .dataAck
  | .sendingTrailer => .trailerAck
  | .idle => .startAck
  | .awaitingStartAck => .startAck
  | .awaitingDataAck => .dataAck
  | .awaitingTrailerAck => .trailerAck
  | .done => .trailerAck
  | .failed => .trailerAck

/-- The cycle of the last byte (R114): the whole write enters the log, and the registers change as the
transaction-level rule says. Between Blocks the working registers hold no specified value (R27). -/
def State.finishBlock (s : State) : State :=
  (({ s with
      txlog := s.txlog ++ [s.txPart]
      txPart := []
      cursor := if s.state = SessionState.sendingData then s.cursor + s.blkLen.toNat else s.cursor }).enterAwait
    s.state.blockWait).freeWork

/-- One cycle of sending (R114): nothing changes until the Link takes the byte. -/
def sendCycle (inputs : ClockIn) (s : State) : Result :=
  if s.linkOpen then
    match s.txByte? with
    | none => .refused .readOutsideImage
    | some b =>
      if inputs.txReady then
        .next (if s.txLast then (s.transferByte b).finishBlock else s.transferByte b)
      else .next s
  else .refused .linkClosed

/-- One cycle of a wait (R115): poll and sample, or pop one byte, or evaluate `NL in rxbuf` (log entry 18). -/
def awaitCycle (w : Wait) (s : State) : Result :=
  match s.drain with
  | none =>
    if s.timeUp then Result.ofExcept (raiseNoAcknowledgment s)
    else
      match linkAvail s with
      | .error r => .refused r
      | .ok 0 => .next s
      | .ok (n + 1) => .next { s with drain := some (n + 1) }
  | some (k + 1) =>
    match linkRead 1 s with
    | .error r => .refused r
    | .ok (bs, t) => .next { t.pushRxbuf bs with drain := some k }
  | some 0 =>
    if hasNewline s.rxbuf then .next (({ s with drain := none }).acknowledge w).loadBlk
    else .next { s with drain := none }

/-- What the core does in a cycle without reset. DESIGN CHOICE: the step of R85 takes the first cycle in which `state` is
`SendingData` with no chunk left, one cycle in which nothing is offered (log entry 35). -/
def coreCycle (inputs : ClockIn) (s : State) : Result :=
  match s.state with
  | .idle =>
    if inputs.start = true ∧ s.linkOpen = true then
      .next (s.latchStart inputs.startAddrI inputs.imgLenI inputs.timeoutMsI).loadBlk
    else .next s
  | .sendingStart => sendCycle inputs s
  | .awaitingStartAck => awaitCycle .startAck s
  | .sendingData =>
    if s.cursor = s.imgLen then .next (s.goto .sendingTrailer).loadBlk else sendCycle inputs s
  | .awaitingDataAck => awaitCycle .dataAck s
  | .sendingTrailer => sendCycle inputs s
  | .awaitingTrailerAck => awaitCycle .trailerAck s
  | .done => .next s
  | .failed => .next s

/-- A tick of the cycle, ordered after the core's own change (R115) and counted only where the cycle began and ended in
a wait: while a Block is being sent `tick_ms` changes no register (R114; log entry 19). -/
def tickCycle (inputs : ClockIn) (before after : State) : State :=
  if inputs.tickMs = true ∧ before.state.isAwaiting = true then after.tick else after

/-- One rising edge of `clk` (R113): reset wins over everything. -/
def clockCycle (inputs : ClockIn) (s : State) : Result :=
  if inputs.rst then .next s.resetRegs
  else Result.andThen (coreCycle inputs s) fun t => .next (tickCycle inputs s t)

/-- A cycle in which no input is driven: what an exhausted clocked schedule goes on with (log entry 20). -/
def ClockIn.quiet : ClockIn where
  rst := false
  start := false
  startAddrI := 0
  imgLenI := 0
  timeoutMsI := 0
  txReady := false
  tickMs := false

/-- The output ports of R112, and the core's own `fr_invalid` (R118). A data port and its valid port are one optional
value (log entry 31). -/
structure Ports where
  /-- `img_addr`, where it is driven (R116). -/
  imgAddr : Option Nat
  /-- `tx_data` with `tx_last`, where `tx_valid` = 1. -/
  tx : Option (Byte × Bool)
  rxPop : Bool
  linkClose : Bool
  stateO : BitVec 4
  errO : BitVec 3
  cursorO : Nat
  done : Bool
  failed : Bool
  busy : Bool
  /-- `diag_data` with `diag_last`, where `diag_valid` = 1 (R117). -/
  diag : Option (Byte × Bool)
  /-- `fr_invalid` of the Framer inside the core, whose request is the session's (R118). -/
  frInvalid : Bool
deriving DecidableEq, Repr

/-- What the session asks the Framer for (R83, R84, R86): inside the core the Framer's request comes from here only
(R118). -/
def State.framerRequest? (s : State) : Option (Kind × List Byte) :=
  match s.state with
  | .sendingStart => some (.start, be16 s.startAddr)
  | .sendingData =>
    if s.cursor = s.imgLen then none
    else (s.img.readMany s.cursor (chunkSize s.imgLen s.cursor)).map fun chunk => (.data, chunk)
  | .sendingTrailer => some (.trailer, [])
  | .idle => none
  | .awaitingStartAck => none
  | .awaitingDataAck => none
  | .awaitingTrailerAck => none
  | .done => none
  | .failed => none

/-- `rx_pop` (R115): the cycle pops a byte. -/
def State.rxPop (s : State) : Bool :=
  s.state.isAwaiting && (s.drain.getD 0 != 0)

/-- `diag_last` (R117): the byte is the last one popped in a poll step that ends in the acknowledgment path. -/
def State.diagLast (b : Byte) (s : State) : Bool :=
  s.drain == some 1 && hasNewline (s.rxbuf ++ [b])

/-- The output ports in a cycle (R112, R113, R114, R115, R117): in reset the strobes are 0. -/
def ports (inputs : ClockIn) (s : State) : Ports where
  imgAddr :=
    if s.state = .sendingData ∧ s.cursor ≠ s.imgLen ∧ 4 ≤ s.byteIdx.toNat ∧ s.byteIdx.toNat < 4 + s.blkLen.toNat then
      some s.imgAddr
    else none
  tx := if inputs.rst = false ∧ s.sendsBlock = true then s.txByte?.map fun b => (b, s.txLast) else none
  rxPop := !inputs.rst && s.rxPop
  linkClose := !inputs.rst && s.state.isAwaiting && s.drain.isNone && s.timeUp
  stateO := s.state.code
  errO := s.err.code
  cursorO := s.cursor
  done := s.doneOut
  failed := s.failedOut
  busy := s.busy
  diag := if inputs.rst = false ∧ s.rxPop = true then s.rxq.head?.map fun b => (b, s.diagLast b) else none
  frInvalid := !inputs.rst && s.framerRequest?.any fun r => (frame r.1 r.2).isNone

/-- Clock cycles one after another. -/
def cyclesOf : List ClockIn → State → Result
  | [], s => .next s
  | c :: cs, s => Result.andThen (clockCycle c s) (cyclesOf cs)

end Sys2Proof.Machine
end

