-- ==== Sys2Proof/Machine/Dispatch.lean ====
section
/-! DEFINITION. The dispatch: one arm per operation, each a direct call of its meaning. -/

namespace Sys2Proof.Machine

def exec (i : Instr) (s : State) : Host.Outcome State Fault Refusal :=
  match i with
  | .frameStart p => Sys2Proof.Machine.execFrameStart p s
  | .frameData p => Sys2Proof.Machine.execFrameData p s
  | .frameTrailer p => Sys2Proof.Machine.execFrameTrailer p s
  | .frameInvalid k p => Sys2Proof.Machine.execFrameInvalid k p s
  | .checksum bs => Sys2Proof.Machine.execChecksum bs s
  | .segNext => Sys2Proof.Machine.execSegNext s
  | .hostStart a l t => Sys2Proof.Machine.execHostStart a l t s
  | .hostReset => Sys2Proof.Machine.execHostReset s
  | .sessionIdle => Sys2Proof.Machine.execSessionIdle s
  | .sessionSendStart => Sys2Proof.Machine.execSessionSendStart s
  | .sessionSendData => Sys2Proof.Machine.execSessionSendData s
  | .sessionNoData => Sys2Proof.Machine.execSessionNoData s
  | .sessionSendTrailer => Sys2Proof.Machine.execSessionSendTrailer s
  | .sessionAckNext => Sys2Proof.Machine.execSessionAckNext s
  | .sessionDone => Sys2Proof.Machine.execSessionDone s
  | .sessionFailed => Sys2Proof.Machine.execSessionFailed s
  | .awaitEnter w => Sys2Proof.Machine.execAwaitEnter w s
  | .awaitPoll => Sys2Proof.Machine.execAwaitPoll s
  | .awaitAck => Sys2Proof.Machine.execAwaitAck s
  | .awaitTimeout => Sys2Proof.Machine.execAwaitTimeout s
  | .tick => Sys2Proof.Machine.execTick s
  | .linkOpen d b r => Sys2Proof.Machine.execLinkOpen d b r s
  | .linkWrite bs => Sys2Proof.Machine.execLinkWrite bs s
  | .linkAvail => Sys2Proof.Machine.execLinkAvail s
  | .linkRead n => Sys2Proof.Machine.execLinkRead n s
  | .linkClose => Sys2Proof.Machine.execLinkClose s
  | .remoteEnqueue b => Sys2Proof.Machine.execRemoteEnqueue b s
  | .memRead j n => Sys2Proof.Machine.execMemRead j n s
  | .upload a t image waits => Sys2Proof.Machine.execUpload a t image waits s
  | .ackLine bs => Sys2Proof.Machine.execAckLine bs s

end Sys2Proof.Machine
end

