-- ==== Sys2Proof/Machine/Events.lean ====
section
/-! DEFINITION. The steps of the agents (00_scope.md R15): how each entry of the schedule is carried out, which
operation it runs, and what an exhausted schedule goes on with. -/

namespace Sys2Proof.Machine

/-- A step of the environment. The host opens the Link and loads the Image only while no run is going on, and closes the
Link only in `Done`; the model gives the host no step beyond those of R111 (U5; log entry 13). -/
def execEnv (e : EnvEvent) (s : State) : Result :=
  match e with
  | .rx b => exec (.remoteEnqueue b) s
  | .openLink device baud reply =>
    if s.busy then .refused .hostDutyBroken else exec (.linkOpen device baud reply) s
  | .closeLink => if s.state = .done then exec .linkClose s else .refused .hostDutyBroken
  | .loadImage image => if s.busy then .refused .hostDutyBroken else .next (s.loadImage image)

/-- Bytes given as an encoded operation: the decoder says which operation runs. -/
def execWord (bs : List Byte) (s : State) : Result :=
  match decode bs with
  | .ok i => exec i s
  | .error _ => .refused .undecodable

/-- One transaction-level step. -/
def execEvent (e : Event) (s : State) : Result :=
  match e with
  | .core => exec (coreInstr s) s
  | .tick => exec .tick s
  | .start startAddr imgLen timeoutMs => exec (.hostStart startAddr imgLen timeoutMs) s
  | .reset => exec .hostReset s
  | .env e => execEnv e s
  | .framerRequest kind payload => exec (requestOf kind payload) s
  | .framerWord bs => execWord bs s

/-- One entry of a clocked schedule. -/
def execCycle (c : CycleEvent) (s : State) : Result :=
  match c with
  | .env e => execEnv e s
  | .clk inputs => clockCycle inputs s
  | .framer inputs => .next (s.clockFramer inputs)

/-- The state a step starts from: the entry it takes is off the schedule, and the answer of the step before is gone
(R118: `fr_invalid` is 1 for one cycle). -/
def State.begin (rest : Schedule) (s : State) : State :=
  { s with answer := .none, schedule := rest }

/-- One step: the next entry of the schedule. Where none is left the core goes on by itself (R101, R134), or the clock
goes on with no input driven (log entries 2 and 20). -/
def runSchedule (s : State) : Result :=
  match s.schedule with
  | .steps [] => execEvent .core (s.begin (.steps []))
  | .steps (e :: es) => execEvent e (s.begin (.steps es))
  | .cycles [] => execCycle (.clk ClockIn.quiet) (s.begin (.cycles []))
  | .cycles (c :: cs) => execCycle c (s.begin (.cycles cs))

/-- The schedule with an encoded operation before everything else; a clocked schedule gives way to it. -/
def Schedule.withWord (bs : List Byte) : Schedule → Schedule
  | .steps es => .steps (.framerWord bs :: es)
  | .cycles _ => .steps [.framerWord bs]

/-- Transaction-level steps one after another, as a run script lists them (R64). -/
def eventsOf : List Event → State → Result
  | [], s => .next s
  | e :: es, s => Result.andThen (execEvent e s) (eventsOf es)

end Sys2Proof.Machine
end

