-- ==== Sys2Proof/Machine/Step.lean ====
section
/-! DEFINITION. One step of the machine, and how a word is placed where the next step fetches it. -/

namespace Sys2Proof.Machine

/-- One step: the next entry of the schedule is carried out. -/
def step (s : State) : Host.Outcome State Fault Refusal :=
  runSchedule s

/-- The state with an instruction word as the next entry of the schedule: a request of the stand-alone Framer (log
entry 3). Nothing else changes. -/
def State.withFetchWord (s : State) (nbits w : Nat) : State :=
  { s with schedule := s.schedule.withWord (layoutTableWord nbits w) }

end Sys2Proof.Machine
end

