-- ==== Sys2Proof/Safety.lean ====
section
/-! DEFINITION. What counts as a safe run, in the terms the statements use: the invariant of every step, the history a
run leaves on the Link (43_session.md R91, R92), the invariant of the clocked refinement, and the transaction-level view
of a clocked state (45_link_and_ports.md R119). -/

namespace Sys2Proof

/-- A wait of a whole session that ends in an acknowledgment: its line holds an `NL`, and the core polls before the
time is up. -/
def WaitPlay.acknowledges (timeoutMs : Word16) (p : WaitPlay) : Prop :=
  Machine.hasNewline p.line = true ∧ p.ticks < timeoutMs.toNat

end Sys2Proof

namespace Sys2Proof.Machine

/-! ### The invariant of every step -/

/-- A schedule of clock cycles is being run. -/
def Schedule.isClocked : Schedule → Bool
  | .steps _ => false
  | .cycles _ => true

/-- A drain in progress belongs to a wait, and the bytes it has still to pop are queued (R115). -/
def State.drainSound (s : State) : Prop :=
  ∀ k, s.drain = some k → s.state.isAwaiting = true ∧ k ≤ s.rxq.length

/-- While a Data Block is being sent byte by byte, `blk_len` is the size of its chunk (R114). -/
def State.blkLenSound (s : State) : Prop :=
  s.state = .sendingData → s.cursor ≠ s.imgLen → s.blkLen = lenByte (chunkSize s.imgLen s.cursor)

/-- What holds in every reachable state, at either level. -/
structure Inv (s : State) : Prop where
  /-- 0 <= `cursor` <= `img_len` (R21). -/
  cursor_le : s.cursor ≤ s.imgLen
  /-- `err` = 2 exactly when `state` = `Failed` (R28). -/
  err_iff : s.err = .noAcknowledgment ↔ s.state = .failed
  /-- The core writes no other error kind (R28). -/
  err_kind : s.err = .none ∨ s.err = .noAcknowledgment
  /-- The Link is open while a run goes on (R105, R106). -/
  link_open : s.busy = true → s.linkOpen = true
  /-- `rxbuf` holds bytes in a wait only (R26). -/
  rxbuf_empty : s.state.isAwaiting = false → s.rxbuf = []
  /-- Nothing of the Image is sent before the first wait has ended (R80, R83). -/
  cursor_zero : s.state = .sendingStart ∨ s.state = .awaitingStartAck → s.cursor = 0
  /-- The whole Image is sent before the Trailer Block (R85, R88). -/
  cursor_end : s.state = .sendingTrailer ∨ s.state = .awaitingTrailerAck ∨ s.state = .done → s.cursor = s.imgLen
  /-- The Image keeps its canonical form. -/
  image_wf : s.img.wf = true
  /-- At the transaction level no drain is in progress. -/
  no_drain : s.schedule.isClocked = false → s.drain = none
  /-- At the clocked level the working registers are sound. -/
  clocked : s.schedule.isClocked = true → s.drainSound ∧ s.blkLenSound

/-! ### The writes of a run -/

/-- The Start Address Block of a run (R83). -/
def startBlock (startAddr : Word16) : List Byte :=
  layoutBlock .start (be16 startAddr)

/-- Chunk `i` of the Image, counted from 0 (R77). -/
def chunkAt (image : List Byte) (i : Nat) : List Byte :=
  (image.drop (255 * i)).take 255

/-- N = ceil(L / 255) (R77). -/
def chunkCount (imgLen : Nat) : Nat :=
  (imgLen + 254) / 255

/-- The first `k` Data Blocks of a run. -/
def dataBlocks (image : List Byte) (k : Nat) : List (List Byte) :=
  (List.range k).map fun i => layoutBlock .data (chunkAt image i)

/-- The Trailer Block (R58): the constant `55 3C FF 00 00 55`. -/
def trailerBlock : List Byte :=
  [0x55, 0x3C, 0xFF, 0x00, 0x00, 0x55]

/-- W, the full write sequence of a run (R91). -/
def fullWrites (startAddr : Word16) (image : List Byte) : List (List Byte) :=
  startBlock startAddr :: (dataBlocks image (chunkCount image.length) ++ [trailerBlock])

/-- `m` writes have been made when the run stands in this state with this `cursor` (R77, R91). -/
def State.writesMade (image : List Byte) (m : Nat) (s : State) : Prop :=
  match s.state with
  | .idle => False
  | .sendingStart => m = 0 ∧ s.cursor = 0
  | .awaitingStartAck => m = 1 ∧ s.cursor = 0
  | .sendingData => ∃ k, k ≤ chunkCount image.length ∧ s.cursor = min (255 * k) image.length ∧ m = k + 1
  | .awaitingDataAck => ∃ k, 1 ≤ k ∧ k ≤ chunkCount image.length ∧ s.cursor = min (255 * k) image.length ∧ m = k + 1
  | .sendingTrailer => m = chunkCount image.length + 1 ∧ s.cursor = image.length
  | .awaitingTrailerAck => m = chunkCount image.length + 2 ∧ s.cursor = image.length
  | .done => m = chunkCount image.length + 2 ∧ s.cursor = image.length
  | .failed => 1 ≤ m ∧ m ≤ chunkCount image.length + 2

/-- The history of a run over `image` that found `before` in the log and `echoed` lines in the echo: the writes added
are a prefix of W, whole Blocks only (R91), and each write but the last has been followed by one wait that ended in an
acknowledgment (R47, R92). -/
structure RunHistory (startAddr : Word16) (image : List Byte) (before : List (List Byte)) (echoed : Nat) (s : State) :
    Prop where
  start_addr : s.startAddr = startAddr
  img_len : s.imgLen = image.length
  held : s.busy = true → s.img = Memory.ofBytes image
  link_open : s.busy = true → s.linkOpen = true
  writes : ∃ m, s.writesMade image m ∧ s.txlog = before ++ (fullWrites startAddr image).take m
    ∧ m + echoed = s.diag.length + (if s.state.isAwaiting = true ∨ s.state = .failed then 1 else 0)

/-- The chunks `seg_next` yields when `cursor` is advanced by each one's length, `fuel` of them at most (R77). -/
def chunksFrom : Nat → State → List (List Byte)
  | 0, _ => []
  | fuel + 1, s =>
    match segNext s with
    | .ok (some c) => c :: chunksFrom fuel (s.advance c.length)
    | .ok none => []
    | .error _ => []

/-! ### Transitions -/

/-- What may happen in a wait between two poll steps without giving the core an `NL` to read: a tick, the arrival of any
other byte, a start command, which a wait ignores, and a request of the stand-alone Framer. -/
def Event.isQuiet : Event → Bool
  | .core => false
  | .tick => true
  | .start _ _ _ => true
  | .reset => false
  | .env (.rx b) => b != Config.newline
  | .env (.openLink _ _ _) => false
  | .env .closeLink => false
  | .env (.loadImage _) => false
  | .framerRequest _ _ => true
  | .framerWord bs => (decode bs).isOk

/-- Poll steps, each after the events of one list: what happens from one poll step to the next. -/
def pollsAfter (segs : List (List Event)) : List Event :=
  segs.flatMap fun es => es ++ [.core]

/-- The edges of the transition table (R80) and reset (R135), as what one step may make of `state`; staying is allowed
where the table has the state wait. -/
def SessionState.mayBecome : SessionState → SessionState → Bool
  | .idle, t => t == .idle || t == .sendingStart
  | .sendingStart, t => t == .awaitingStartAck
  | .awaitingStartAck, t => t == .awaitingStartAck || t == .sendingData || t == .failed
  | .sendingData, t => t == .awaitingDataAck || t == .sendingTrailer
  | .awaitingDataAck, t => t == .awaitingDataAck || t == .sendingData || t == .failed
  | .sendingTrailer, t => t == .awaitingTrailerAck
  | .awaitingTrailerAck, t => t == .awaitingTrailerAck || t == .done || t == .failed
  | .done, t => t == .done
  | .failed, t => t == .failed

/-- The operations that change nothing but the answer: the functions of the sub-blocks run on their own and the probe
(R71, R76, R36, R87, R62, R67, R106). -/
def isFunction : Instr → Bool
  | .frameStart _ => true
  | .frameData _ => true
  | .frameTrailer _ => true
  | .frameInvalid _ _ => true
  | .checksum _ => true
  | .segNext => true
  | .sessionAckNext => true
  | .linkAvail => true
  | .memRead _ _ => true
  | .ackLine _ => true
  | .hostStart _ _ _ => false
  | .hostReset => false
  | .sessionIdle => false
  | .sessionSendStart => false
  | .sessionSendData => false
  | .sessionNoData => false
  | .sessionSendTrailer => false
  | .sessionDone => false
  | .sessionFailed => false
  | .awaitEnter _ => false
  | .awaitPoll => false
  | .awaitAck => false
  | .awaitTimeout => false
  | .tick => false
  | .linkOpen _ _ _ => false
  | .linkWrite _ => false
  | .linkRead _ => false
  | .linkClose => false
  | .remoteEnqueue _ => false
  | .upload _ _ _ _ => false

/-! ### The clocked refinement -/

/-- The Block a sending state sends, as the transaction level writes it; none where the Image does not hold the chunk. -/
def State.blockBytes? (s : State) : Option (List Byte) :=
  s.framerRequest?.bind fun r => frame r.1 r.2

/-- The bytes of `bs` that `cks_acc` has summed when the first `i` bytes are transferred: those of the checksum region
(R70, R114). -/
def summedRegion (bs : List Byte) (i : Nat) : List Byte :=
  ((bs.take (bs.length - 2)).take i).drop 2

/-- The write in progress: `byte_idx` bytes of the Block are transferred, and the working registers hold what R114 says
they hold then. -/
structure BlockProgress (bs : List Byte) (s : State) : Prop where
  idx : s.byteIdx.toNat < bs.length
  sent : s.txPart = bs.take s.byteIdx.toNat
  kind : bs[2]? = some s.blkKind
  len : bs.length = s.blkLen.toNat + 6
  sum : s.cksAcc = checksum (summedRegion bs s.byteIdx.toNat)

/-- What holds in every state of a clocked run whose host presents an Image of `img_len` bytes (R110, R137). -/
structure ClockInv (s : State) : Prop where
  link_open : s.busy = true → s.linkOpen = true
  cursor_le : s.cursor ≤ s.imgLen
  image : s.busy = true → ∀ i < s.imgLen, (s.img.read i).isSome = true
  drain : s.drainSound
  block : s.sendsBlock = true → ∃ bs, s.blockBytes? = some bs ∧ BlockProgress bs s
  no_block : s.sendsBlock = false → s.txPart = []

/-- The state with everything erased that the transaction level does not have or leaves unspecified: the working
registers and what belongs to them, the registers R33 leaves unspecified in `Idle`, `wd_elapsed` outside a wait
(nothing reads it there, R25), the wire (R136), and the model's own fields. -/
def State.view (s : State) : State :=
  { s with
    startAddr := if s.state = .idle then 0 else s.startAddr
    imgLen := if s.state = .idle then 0 else s.imgLen
    timeoutMs := if s.state = .idle then 0 else s.timeoutMs
    wdElapsed := if s.state.isAwaiting = true then s.wdElapsed else 0
    blkKind := 0
    blkLen := 0
    cksAcc := 0
    byteIdx := 0
    txPart := []
    wire := []
    answer := .none
    freeCtr := 0
    schedule := .steps [] }

/-- A drain in progress seen from the transaction level, where the poll step is atomic and its instant is the cycle in
which the count was sampled (R115): all its bytes are read, and the buffer has been evaluated. -/
def State.drained (s : State) : State :=
  match s.drain, s.state.wait? with
  | some k, some w =>
    let t := { s with rxbuf := s.rxbuf ++ s.rxq.take k, rxq := s.rxq.drop k, drain := none }
    if hasNewline t.rxbuf then t.acknowledge w else t
  | _, _ => { s with drain := none }

/-- The transaction-level state a clocked state stands for (R119). -/
def State.transaction (s : State) : State :=
  s.drained.view

/-- The tick of a cycle, as a transaction-level step. -/
def tickEvents (inputs : ClockIn) : List Event :=
  if inputs.tickMs then [.tick] else []

/-- The transaction-level steps one clock cycle stands for (R119): none in a cycle that only moves a byte. A tick in the
cycle of a poll step is ordered after it (R115); in the other states a tick changes nothing and stands first. The step of R85 has one cycle of its own (log entry 35). -/
def cycleEvents (inputs : ClockIn) (s : State) : List Event :=
  if inputs.rst then [.reset]
  else if s.state.isAwaiting then (if s.drain.isNone then [.core] else []) ++ tickEvents inputs
  else if s.state = .idle then
    tickEvents inputs ++
      (if inputs.start then [.start inputs.startAddrI inputs.imgLenI inputs.timeoutMsI] else [])
  else if s.state.isSending then
    tickEvents inputs ++
      (if s.sendsBlock = false ∨ (inputs.txReady = true ∧ s.txLast = true) then [.core] else [])
  else tickEvents inputs

end Sys2Proof.Machine
end

