-- ==== Sys2Proof/Certificates/Slice0/Obligations.lean ====
section
/-! DEFINITION. The statements for the provers. -/

open Sys2Proof Sys2Proof.Machine

/-! ### Encoding -/

/-- R58, R59, R60, R61 on words written out from R52: one Block of each kind, the DATA Block of the document with the
corrected checksum and, refused, with the printed one (C2), a reserved kind, and the DATA Block of length 0. -/
def Obligations.SpecBlocksDecode : Prop :=
  decode [0x55, 0x3C, 0x00, 0x02, 0x12, 0x34, 0x48, 0x55] = .ok (.frameStart [0x12, 0x34]) ∧
  decode [0x55, 0x3C, 0x01, 0x03, 0x10, 0x20, 0x30, 0x64, 0x55] = .ok (.frameData [0x10, 0x20, 0x30]) ∧
  decode [0x55, 0x3C, 0xFF, 0x00, 0x00, 0x55] = .ok (.frameTrailer []) ∧
  decode [0x55, 0x3C, 0x01, 0x03, 0x10, 0x20, 0x30, 0x63, 0x55] = .error .badChecksum ∧
  decode [0x55, 0x3C, 0x02, 0x00, 0x02, 0x55] = .error (.reservedKind 0x02) ∧
  decode [0x55, 0x3C, 0x01, 0x00, 0x01, 0x55] = .error .illegalLength ∧
  decode [0x55, 0x3C, 0xFF, 0x00, 0xFF, 0x55] = .error .badChecksum

/-- Decoding what the encoder lays out gives the operation back, for every well-formed operation that has an encoding,
with every payload. -/
def Obligations.DecodeOfEncode : Prop :=
  ∀ (i : Instr) (bs : List Byte), i.wellFormed = true → encode i = some bs → decode bs = .ok i

/-- R59: every output of `frame` is a well-formed Block, and a well-formed Block is the output of `frame` for exactly
one kind and payload, the kind its byte 2 names and the payload of its length byte. -/
def Obligations.WellFormedBlocksAreFrames : Prop :=
  (∀ (kind : Kind) (payload b : List Byte), frame kind payload = some b → isBlock b = true) ∧
  (∀ b : List Byte, isBlock b = true →
    ∃ kind : Kind, b[2]? = some kind.byte ∧ frame kind ((b.drop 4).take (b.getD 3 0).toNat) = some b ∧
      ∀ (kind' : Kind) (payload' : List Byte), frame kind' payload' = some b →
        kind' = kind ∧ payload' = (b.drop 4).take (b.getD 3 0).toNat)

/-- R54, R70, R71: the Framer's output is the layout of the wire-format table, exactly where the kind allows the length. -/
def Obligations.FrameIsTheWireLayout : Prop :=
  ∀ (kind : Kind) (payload : List Byte),
    frame kind payload = if kind.legalLen payload.length = true then some (layoutBlock kind payload) else none

/-- R60: no byte sequence with a kind byte 0x02 to 0xFE is an operation. -/
def Obligations.ReservedKindsAreRefused : Prop :=
  ∀ (k n : Byte) (rest : List Byte), 2 ≤ k.toNat → k.toNat ≤ 0xFE →
    decode (0x55 :: 0x3C :: k :: n :: rest) = .error (.reservedKind k)

/-! ### Checksum -/

/-- R67: the checksum is the sum of the bytes as natural numbers, modulo 256; CHECKSUM answers it and changes nothing. -/
def Obligations.ChecksumIsTheSumModulo256 : Prop :=
  ∀ (bs : List Byte) (s : State),
    exec (.checksum bs) s = .next { s with answer := .byte (BitVec.ofNat 8 ((bs.map BitVec.toNat).sum % 256)) }

/-- R68: (a) empty, (b) concatenation, (c) one byte, (d) order, (e) a byte more in the region changes the sum by it, (f) one
byte changed by d changes it by d, and two changes that cancel do not. -/
def Obligations.ChecksumLaws : Prop :=
  checksum [] = 0 ∧
  (∀ a b : List Byte, checksum (a ++ b) = checksum a + checksum b) ∧
  (∀ x : Byte, checksum [x] = x) ∧
  (∀ a b : List Byte, a.Perm b → checksum a = checksum b) ∧
  (∀ (a b : List Byte) (x : Byte), x ≠ 0 → checksum (a ++ x :: b) ≠ checksum (a ++ b)) ∧
  (∀ (a b : List Byte) (x d : Byte),
    checksum (a ++ (x + d) :: b) = checksum (a ++ x :: b) + d ∧
    (d ≠ 0 → checksum (a ++ (x + d) :: b) ≠ checksum (a ++ x :: b))) ∧
  (∀ (a m b : List Byte) (x y d : Byte),
    checksum (a ++ (x + d) :: (m ++ (y - d) :: b)) = checksum (a ++ x :: (m ++ y :: b)))

/-! ### Framer -/

/-- R72: FRAME.START on two bytes answers the eight bytes, on any other length `InvalidPayloadSize`; nothing else
changes. -/
def Obligations.FrameStartAnswers : Prop :=
  (∀ (p0 p1 : Byte) (s : State),
    exec (.frameStart [p0, p1]) s =
      .next { s with answer := .block [0x55, 0x3C, 0x00, 0x02, p0, p1, 0x02 + p0 + p1, 0x55] }) ∧
  (∀ (payload : List Byte) (s : State), payload.length ≠ 2 →
    exec (.frameStart payload) s = .next { s with answer := .invalidPayloadSize })

/-- R73: FRAME.DATA on 1 to 255 bytes answers the Block with checksum (1 + n + sum) mod 256, on any other length
`InvalidPayloadSize`; nothing else changes. -/
def Obligations.FrameDataAnswers : Prop :=
  (∀ (payload : List Byte) (s : State), 1 ≤ payload.length → payload.length ≤ 255 →
    exec (.frameData payload) s =
      .next { s with
        answer := .block ([0x55, 0x3C, 0x01, BitVec.ofNat 8 payload.length] ++ payload ++
          [BitVec.ofNat 8 (1 + payload.length + (payload.map BitVec.toNat).sum), 0x55]) }) ∧
  (∀ (payload : List Byte) (s : State), payload.length = 0 ∨ 255 < payload.length →
    exec (.frameData payload) s = .next { s with answer := .invalidPayloadSize })

/-- R74: FRAME.TRAILER on the empty payload answers the constant, whose checksum byte is 0x00; on any other payload
`InvalidPayloadSize`; nothing else changes. -/
def Obligations.FrameTrailerAnswers : Prop :=
  (∀ s : State, exec (.frameTrailer []) s = .next { s with answer := .block [0x55, 0x3C, 0xFF, 0x00, 0x00, 0x55] }) ∧
  (∀ (payload : List Byte) (s : State), payload ≠ [] →
    exec (.frameTrailer payload) s = .next { s with answer := .invalidPayloadSize })

/-- R75: FRAME.INVALID, `frame(kind, payload)` with a length outside the kind's range, raises `fr_invalid`, emits no
byte and changes no register. R118: on the ports of the stand-alone Framer, in the cycle after the request and in that
cycle only (the cycle is the model's choice, log entry 34). -/
def Obligations.FrameInvalidAnswers : Prop :=
  ∀ (kind : Kind) (payload : List Byte), (Instr.frameInvalid kind payload).wellFormed = true →
    (∀ s : State, ∃ t, exec (.frameInvalid kind payload) s = .next t ∧ t = { s with answer := .invalidPayloadSize } ∧
      t.frInvalid = true) ∧
    (∀ (c d e : FramerIn) (u : FramerUnit), u = .idle ∨ u = .invalid →
      c.rst = false → d.rst = false → c.request = some (kind, payload) → d.request = none →
      (u.cycle c).ports d = { tx := none, frInvalid := true } ∧
      ((u.cycle c).cycle d).ports e = { tx := none, frInvalid := false })

/-! ### Image and Segmenter -/

/-- R36: MEM.READ answers the `n` Image bytes from `i` on; outside the Image it is refused. -/
def Obligations.MemReadAnswers : Prop :=
  (∀ (i n : Nat) (s : State), 1 ≤ n → i + n ≤ s.imgLen → (∀ j < n, (s.img.read (i + j)).isSome = true) →
    ∃ bs : List Byte, exec (.memRead i n) s = .next { s with answer := .bytes bs } ∧ bs.length = n ∧
      ∀ j < n, bs[j]? = s.img.read (i + j)) ∧
  (∀ (i n : Nat) (s : State), n = 0 ∨ s.imgLen < i + n → exec (.memRead i n) s = .refused .readOutsideImage)

/-- R76: SEG.NEXT answers none at the end of the Image, else the next min(255, img_len - cursor) bytes; `cursor` stays. -/
def Obligations.SegNextAnswers : Prop :=
  (∀ s : State, s.cursor = s.imgLen → exec .segNext s = .next { s with answer := .chunk none }) ∧
  (∀ s : State, s.cursor < s.imgLen → (∀ i < s.imgLen, (s.img.read i).isSome = true) →
    ∃ chunk : List Byte, exec .segNext s = .next { s with answer := .chunk (some chunk) } ∧
      chunk.length = min 255 (s.imgLen - s.cursor) ∧
      ∀ j < chunk.length, chunk[j]? = s.img.read (s.cursor + j))

/-- R77: from `cursor` = 0 the chunks are ceil(L/255) slices of 1 to 255 bytes, chunk i from offset 255 i, all but the
last of exactly 255, and together the Image. -/
def Obligations.ChunksRebuildTheImage : Prop :=
  ∀ (image : List Byte) (s : State), s.img = Memory.ofBytes image → s.imgLen = image.length → s.cursor = 0 →
    chunksFrom (image.length + 1) s = (List.range ((image.length + 254) / 255)).map (chunkAt image) ∧
    (chunksFrom (image.length + 1) s).flatten = image ∧
    (∀ c ∈ chunksFrom (image.length + 1) s, 1 ≤ c.length ∧ c.length ≤ 255) ∧
    (∀ (i : Nat) (c : List Byte), (chunksFrom (image.length + 1) s)[i]? = some c →
      i + 1 < (image.length + 254) / 255 → c.length = 255)

/-- R37: no operation writes the Image; only a whole UPLOAD presents one. Every offset reads as before. -/
def Obligations.ImageIsNeverWritten : Prop :=
  ∀ (i : Instr) (s t : State), (∀ a v image waits, i ≠ .upload a v image waits) → exec i s = .next t →
    ∀ offset : Nat, t.img.read offset = s.img.read offset

/-! ### Link -/

/-- R104: LINK.OPEN with a Link for an answer opens it, with any queue content; an error changes nothing in the core. That
it does so on a Link that is already open is the model's choice (log entry 32). -/
def Obligations.LinkOpenOpens : Prop :=
  (∀ (device : String) (baud : Nat) (queued : List Byte) (s : State),
    exec (.linkOpen device baud (.opened queued)) s =
      .next { s with linkOpen := true, linkDevice := device, linkBaud := baud, rxq := queued }) ∧
  (∀ (device : String) (baud : Nat) (s : State),
    exec (.linkOpen device baud .unavailable) s = .next { s with answer := .linkUnavailable })

/-- R105: LINK.WRITE is one entry of the log, its bytes on the wire in order, and answers `count_written` = `len(bs)`. -/
def Obligations.LinkWriteAppends : Prop :=
  ∀ (bs : List Byte) (s : State), s.linkOpen = true →
    exec (.linkWrite bs) s =
      .next { s with txlog := s.txlog ++ [bs], wire := s.wire ++ bs, answer := .count bs.length }

/-- R106 and R107: LINK.AVAIL answers the length of the queue and changes nothing; LINK.READ answers the oldest `n`
bytes and removes them, for 1 <= n <= length; the refusal of any other `n` is the model's reading (log entry 12). -/
def Obligations.LinkProbeAndRead : Prop :=
  (∀ s : State, s.linkOpen = true → exec .linkAvail s = .next { s with answer := .count s.rxq.length }) ∧
  (∀ (n : Nat) (s : State), s.linkOpen = true → 1 ≤ n → n ≤ s.rxq.length →
    exec (.linkRead n) s = .next { s with answer := .bytes (s.rxq.take n), rxq := s.rxq.drop n }) ∧
  (∀ (n : Nat) (s : State), s.linkOpen = true → n = 0 ∨ s.rxq.length < n →
    exec (.linkRead n) s = .refused .readBeyondQueue)

/-- R108 and R109: LINK.CLOSE clears `link.open`; REMOTE.ENQUEUE appends any byte to the queue of an open Link. That LINK.CLOSE
leaves the bytes still queued where they are is the model's choice (log entry 33). -/
def Obligations.LinkCloseAndEnqueue : Prop :=
  (∀ s : State, s.linkOpen = true → exec .linkClose s = .next { s with linkOpen := false }) ∧
  (∀ (b : Byte) (s : State), s.linkOpen = true → exec (.remoteEnqueue b) s = .next { s with rxq := s.rxq ++ [b] })

/-- The model's choice, log entry 12 (U7 of 93_implementation_defined.md): on a closed Link no Link operation but LINK.OPEN,
and no step or sub-step of the core that uses the Link, has an effect; each is refused by name. -/
def Obligations.ClosedLinkIsRefused : Prop :=
  ∀ s : State, s.linkOpen = false →
    (∀ bs, exec (.linkWrite bs) s = .refused .linkClosed) ∧ exec .linkAvail s = .refused .linkClosed ∧
    (∀ n, exec (.linkRead n) s = .refused .linkClosed) ∧ exec .linkClose s = .refused .linkClosed ∧
    (∀ b, exec (.remoteEnqueue b) s = .refused .linkClosed) ∧
    (s.state = .sendingStart → exec .sessionSendStart s = .refused .linkClosed) ∧
    (s.state = .sendingTrailer → exec .sessionSendTrailer s = .refused .linkClosed) ∧
    (s.state = .sendingData → s.cursor < s.imgLen → (∀ i < s.imgLen, (s.img.read i).isSome = true) →
      exec .sessionSendData s = .refused .linkClosed) ∧
    (s.state.isAwaiting = true →
      exec .awaitPoll s = .refused .linkClosed ∧ exec .awaitTimeout s = .refused .linkClosed)

/-- R62: ACK.LINE decodes the content before the first `NL`, whatever its bytes; bytes without an `NL` are no
acknowledgment. -/
def Obligations.AckLineDecodes : Prop :=
  (∀ (content rest : List Byte) (s : State), 0x0A ∉ content →
    exec (.ackLine (content ++ 0x0A :: rest)) s = .next { s with answer := .line (some content) }) ∧
  (∀ (bs : List Byte) (s : State), 0x0A ∉ bs → exec (.ackLine bs) s = .next { s with answer := .line none })

/-! ### Host commands -/

/-- R110 and R90: the start command latches its inputs in `Idle` with the Link open; in any other case nothing changes. -/
def Obligations.StartCommand : Prop :=
  (∀ (a : Word16) (n : Nat) (v : Word16) (s : State), s.state = .idle → s.linkOpen = true →
    exec (.hostStart a n v) s =
      .next { s with startAddr := a, imgLen := n, timeoutMs := v, cursor := 0, state := .sendingStart }) ∧
  (∀ (a : Word16) (n : Nat) (v : Word16) (s : State), s.state ≠ .idle ∨ s.linkOpen = false →
    exec (.hostStart a n v) s = .next s)

/-- R135: reset is enabled in every state, sets the five registers with a reset value, and touches neither the Link nor
the Image nor what has been written. The unspecified registers hold any value. -/
def Obligations.ResetSetsTheRegisters : Prop :=
  ∀ s : State, ∃ t, exec .hostReset s = .next t ∧
    t.state = .idle ∧ t.cursor = 0 ∧ t.err = .none ∧ t.rxbuf = [] ∧ t.wdElapsed = 0 ∧
    t.linkOpen = s.linkOpen ∧ t.linkDevice = s.linkDevice ∧ t.linkBaud = s.linkBaud ∧ t.rxq = s.rxq ∧
    t.txlog = s.txlog ∧ t.wire = s.wire ∧ t.diag = s.diag ∧ t.img = s.img ∧
    t.doneOut = false ∧ t.failedOut = false ∧ t.busy = false

/-! ### Session -/

/-- R82, R88, R89: in `Idle`, `Done` and `Failed` the core does nothing and writes nothing. -/
def Obligations.WaitingAndTerminalStatesDoNothing : Prop :=
  (∀ s : State, s.state = .idle → exec .sessionIdle s = .next s) ∧
  (∀ s : State, s.state = .done → exec .sessionDone s = .next s) ∧
  (∀ s : State, s.state = .failed → exec .sessionFailed s = .next s)

/-- R83: the Start Address Block of `start_addr`, high byte first, one write, then the wait. -/
def Obligations.SendStartWritesTheStartBlock : Prop :=
  ∀ s : State, s.state = .sendingStart → s.linkOpen = true →
    ∃ block : List Byte,
      block = [0x55, 0x3C, 0x00, 0x02, s.startAddr.extractLsb' 8 8, s.startAddr.extractLsb' 0 8,
        0x02 + s.startAddr.extractLsb' 8 8 + s.startAddr.extractLsb' 0 8, 0x55] ∧
      exec .sessionSendStart s =
        .next { s with
          txlog := s.txlog ++ [block], wire := s.wire ++ block, wdElapsed := 0, rxbuf := [],
          state := .awaitingStartAck }

/-- R84: the next chunk is framed and written, `cursor` advances by its length, then the wait. -/
def Obligations.SendDataWritesTheChunk : Prop :=
  ∀ s : State, s.state = .sendingData → s.cursor < s.imgLen → s.linkOpen = true →
    (∀ i < s.imgLen, (s.img.read i).isSome = true) →
    ∃ chunk : List Byte,
      chunk.length = min 255 (s.imgLen - s.cursor) ∧ (∀ j < chunk.length, chunk[j]? = s.img.read (s.cursor + j)) ∧
      exec .sessionSendData s =
        .next { s with
          txlog := s.txlog ++ [layoutBlock .data chunk], wire := s.wire ++ layoutBlock .data chunk,
          cursor := s.cursor + chunk.length, wdElapsed := 0, rxbuf := [], state := .awaitingDataAck }

/-- R85: with no chunk left only `state` changes. -/
def Obligations.NoDataGoesToTheTrailer : Prop :=
  ∀ s : State, s.state = .sendingData → s.cursor = s.imgLen →
    exec .sessionNoData s = .next { s with state := .sendingTrailer }

/-- R86: the constant Trailer Block, one write, then the wait. -/
def Obligations.SendTrailerWritesTheTrailer : Prop :=
  ∀ s : State, s.state = .sendingTrailer → s.linkOpen = true →
    exec .sessionSendTrailer s =
      .next { s with
        txlog := s.txlog ++ [[0x55, 0x3C, 0xFF, 0x00, 0x00, 0x55]],
        wire := s.wire ++ [0x55, 0x3C, 0xFF, 0x00, 0x00, 0x55], wdElapsed := 0, rxbuf := [],
        state := .awaitingTrailerAck }

/-- R87: the table `next(state)`. -/
def Obligations.AckNextTable : Prop :=
  ∀ s : State,
    (s.state = .awaitingStartAck → exec .sessionAckNext s = .next { s with answer := .session .sendingData }) ∧
    (s.state = .awaitingDataAck → exec .sessionAckNext s = .next { s with answer := .session .sendingData }) ∧
    (s.state = .awaitingTrailerAck → exec .sessionAckNext s = .next { s with answer := .session .done })

/-! ### The wait -/

/-- R95: `enter_await(S)` as the last action of the sending step of each wait. -/
def Obligations.EnterAwaitClears : Prop :=
  ∀ s : State,
    (s.state = .sendingStart →
      exec (.awaitEnter .startAck) s = .next { s with wdElapsed := 0, rxbuf := [], state := .awaitingStartAck }) ∧
    (s.state = .sendingData →
      exec (.awaitEnter .dataAck) s = .next { s with wdElapsed := 0, rxbuf := [], state := .awaitingDataAck }) ∧
    (s.state = .sendingTrailer →
      exec (.awaitEnter .trailerAck) s = .next { s with wdElapsed := 0, rxbuf := [], state := .awaitingTrailerAck })

/-- R97: the poll step. The timeout first; else all the queued bytes are read, and an `NL` in the buffer ends the wait. -/
def Obligations.PollStep : Prop :=
  ∀ (s : State) (w : Wait), s.state = w.session → s.linkOpen = true →
    (s.timeoutMs.toNat ≤ s.wdElapsed.toNat →
      exec .awaitPoll s =
        .next { s with err := .noAcknowledgment, rxbuf := [], linkOpen := false, state := .failed }) ∧
    (s.wdElapsed.toNat < s.timeoutMs.toNat → s.rxq = [] → exec .awaitPoll s = .next s) ∧
    (s.wdElapsed.toNat < s.timeoutMs.toNat → s.rxq ≠ [] → 0x0A ∉ s.rxbuf ++ s.rxq →
      exec .awaitPoll s = .next { s with rxbuf := s.rxbuf ++ s.rxq, rxq := [] }) ∧
    (s.wdElapsed.toNat < s.timeoutMs.toNat → s.rxq ≠ [] → 0x0A ∈ s.rxbuf ++ s.rxq →
      exec .awaitPoll s =
        .next { s with rxq := [], diag := s.diag ++ [s.rxbuf ++ s.rxq], rxbuf := [], state := w.next })

/-- R98: the acknowledgment path. -/
def Obligations.AcknowledgmentPath : Prop :=
  ∀ (s : State) (w : Wait), s.state = w.session →
    exec .awaitAck s = .next { s with diag := s.diag ++ [s.rxbuf], rxbuf := [], state := w.next }

/-- R99 and R126: the failure transition, completely: what it writes, and that everything else keeps its value. -/
def Obligations.FailureTransition : Prop :=
  ∀ s : State, s.state.isAwaiting = true → s.linkOpen = true →
    ∃ t, exec .awaitTimeout s = .next t ∧
      t = { s with err := .noAcknowledgment, rxbuf := [], linkOpen := false, state := .failed } ∧
      t.err.code = 2 ∧ t.failedOut = true ∧ t.busy = false

/-- R96: a tick counts in the waits only, and saturates. -/
def Obligations.TickCountsInTheWaits : Prop :=
  (∀ s : State, s.state.isAwaiting = true →
    exec .tick s = .next { s with wdElapsed := BitVec.ofNat 16 (min (s.wdElapsed.toNat + 1) 65535) }) ∧
  (∀ s : State, s.state.isAwaiting = false → exec .tick s = .next s)

/-- The model's choice, log entry 11 (from R81 and the `requires` of the rules): a core step or sub-step outside the states
its rule names is not enabled, and the model stops there. -/
def Obligations.NotEnabledElsewhere : Prop :=
  ∀ s : State,
    (s.state ≠ .idle → exec .sessionIdle s = .fault .notEnabled) ∧
    (s.state ≠ .done → exec .sessionDone s = .fault .notEnabled) ∧
    (s.state ≠ .failed → exec .sessionFailed s = .fault .notEnabled) ∧
    (∀ w : Wait, s.state ≠ w.sender → exec (.awaitEnter w) s = .fault .notEnabled) ∧
    (s.state ≠ .sendingStart → exec .sessionSendStart s = .fault .notEnabled) ∧
    (s.state ≠ .sendingData ∨ s.imgLen ≤ s.cursor → exec .sessionSendData s = .fault .notEnabled) ∧
    (s.state ≠ .sendingData ∨ s.cursor ≠ s.imgLen → exec .sessionNoData s = .fault .notEnabled) ∧
    (s.state ≠ .sendingTrailer → exec .sessionSendTrailer s = .fault .notEnabled) ∧
    (s.state.isAwaiting = false →
      exec .awaitPoll s = .fault .notEnabled ∧ exec .awaitAck s = .fault .notEnabled ∧
      exec .awaitTimeout s = .fault .notEnabled ∧ exec .sessionAckNext s = .fault .notEnabled)

/-- R26: of the receive buffer the poll step sees only whether it holds an `NL`; two buffers that agree on that lead to
states that agree on everything but the buffer and the echo. -/
def Obligations.PollSeesOnlyTheNewline : Prop :=
  ∀ (s t : State) (b : List Byte), hasNewline b = hasNewline s.rxbuf → exec .awaitPoll s = .next t →
    ∃ u, exec .awaitPoll { s with rxbuf := b } = .next u ∧
      { u with rxbuf := [], diag := [] } = { t with rxbuf := [], diag := [] } ∧
      hasNewline u.rxbuf = hasNewline t.rxbuf ∧ u.diag.length = t.diag.length

/-- R100, lower bound: between the entry to a wait and `Failed` lie at least `timeout_ms` ticks, whatever the other
agents do meanwhile. -/
def Obligations.TimeoutIsNeverEarly : Prop :=
  ∀ (es : List Event) (s t : State), s.state.isAwaiting = true → s.wdElapsed = 0 → Event.reset ∉ es →
    eventsOf es s = .next t → t.state = .failed → t.diag = s.diag → s.timeoutMs.toNat ≤ es.count .tick

/-- R100, upper bound: with at most `p` ticks between consecutive poll steps (`POLL_INTERVAL`, log entry 23), a wait into
which bytes without `NL` may arrive at any time fails at some poll step, after at least `timeout_ms` and at most
`timeout_ms` + `p` ticks from its entry, and nothing more is written. -/
def Obligations.TimeoutComesWithinOnePollInterval : Prop :=
  ∀ (p : Nat) (segs : List (List Event)) (s : State), s.state.isAwaiting = true → s.linkOpen = true →
    s.wdElapsed = 0 → 0x0A ∉ s.rxbuf ++ s.rxq → segs ≠ [] →
    (∀ es ∈ segs, es.all Event.isQuiet = true ∧ es.count .tick ≤ p) → s.timeoutMs.toNat ≤ segs.flatten.count .tick →
    ∃ (n : Nat) (t : State), n ≤ segs.length ∧ eventsOf (pollsAfter (segs.take n)) s = .next t ∧
      t.state = .failed ∧ t.err = .noAcknowledgment ∧ t.linkOpen = false ∧ t.cursor = s.cursor ∧
      t.txlog = s.txlog ∧ t.wire = s.wire ∧ t.diag = s.diag ∧
      s.timeoutMs.toNat ≤ (segs.take n).flatten.count .tick ∧
      (segs.take n).flatten.count .tick ≤ s.timeoutMs.toNat + p

/-! ### Whole-machine rules -/

/-- R80: whatever operation runs, `state` stays or moves along an edge of the transition table; only reset goes back. -/
def Obligations.TransitionsFollowTheTable : Prop :=
  ∀ (i : Instr) (s t : State), (∀ a v image waits, i ≠ .upload a v image waits) → exec i s = .next t →
    t.state = s.state ∨ s.state.mayBecome t.state = true ∨ (i = .hostReset ∧ t.state = .idle)

/-- R18 and R19: each register is written only by the rules the table of R18 names (with reset, R135, and UPLOAD, the
composite of those rules), and none of them touches the stand-alone Framer, a unit beside the core (R118). -/
def Obligations.RegistersHaveTheirWriters : Prop :=
  ∀ (i : Instr) (s t : State), i ≠ .hostReset → (∀ a v image waits, i ≠ .upload a v image waits) →
    exec i s = .next t →
    ((∀ a n v, i ≠ .hostStart a n v) → i ≠ .sessionSendStart → i ≠ .sessionSendData → i ≠ .sessionNoData →
      i ≠ .sessionSendTrailer → (∀ w, i ≠ .awaitEnter w) → i ≠ .awaitPoll → i ≠ .awaitAck → i ≠ .awaitTimeout →
      t.state = s.state) ∧
    ((∀ a n v, i ≠ .hostStart a n v) →
      t.startAddr = s.startAddr ∧ t.imgLen = s.imgLen ∧ t.timeoutMs = s.timeoutMs ∧
      (i ≠ .sessionSendData → t.cursor = s.cursor)) ∧
    (i ≠ .awaitPoll → i ≠ .awaitTimeout → t.err = s.err) ∧
    (i ≠ .sessionSendStart → i ≠ .sessionSendData → i ≠ .sessionSendTrailer → (∀ w, i ≠ .awaitEnter w) →
      (i ≠ .tick → t.wdElapsed = s.wdElapsed) ∧
      (i ≠ .awaitPoll → i ≠ .awaitAck → i ≠ .awaitTimeout → t.rxbuf = s.rxbuf)) ∧
    (t.blkKind = s.blkKind ∧ t.blkLen = s.blkLen ∧ t.cksAcc = s.cksAcc ∧ t.byteIdx = s.byteIdx ∧ t.drain = s.drain ∧
      t.framer = s.framer)

/-- R71, R76, R36, R62, R67, R87, R106: an operation that is a function changes its answer and nothing else. -/
def Obligations.FunctionsOnlyAnswer : Prop :=
  ∀ (i : Instr) (s t : State), isFunction i = true → exec i s = .next t → ∃ a : Answer, t = { s with answer := a }

/-- R89, R90, R127: no step of any agent but reset changes a register, the wire or the log once the run has ended. -/
def Obligations.TerminalStatesAreLeftByResetOnly : Prop :=
  ∀ (e : Event) (s t : State), s.state = .done ∨ s.state = .failed → e ≠ .reset → execEvent e s = .next t →
    t.state = s.state ∧ t.startAddr = s.startAddr ∧ t.imgLen = s.imgLen ∧ t.timeoutMs = s.timeoutMs ∧
    t.cursor = s.cursor ∧ t.wdElapsed = s.wdElapsed ∧ t.rxbuf = s.rxbuf ∧ t.err = s.err ∧
    t.txlog = s.txlog ∧ t.wire = s.wire ∧ t.diag = s.diag

/-! ### Steps -/

/-- When the next entry of the schedule is a word that decodes to `i`, the step is `i` run on the state without that
entry and with the answer of the step before cleared; so for a word placed by `withFetchWord`, before a schedule of either
level. A word that decodes to nothing is refused (log entries 2 and 3). -/
def Obligations.StepRunsTheDecodedOperation : Prop :=
  (∀ (s : State) (bs : List Byte) (es : List Event) (i : Instr), s.schedule = .steps (.framerWord bs :: es) →
    decode bs = .ok i → step s = exec i { s with answer := .none, schedule := .steps es }) ∧
  (∀ (s : State) (nbits w : Nat) (es : List Event) (i : Instr), s.schedule = .steps es →
    decodeTableWord nbits w = some i →
    step (s.withFetchWord nbits w) = exec i { s with answer := .none, schedule := .steps es }) ∧
  (∀ (s : State) (nbits w : Nat) (cs : List CycleEvent) (i : Instr), s.schedule = .cycles cs →
    decodeTableWord nbits w = some i →
    step (s.withFetchWord nbits w) = exec i { s with answer := .none, schedule := .steps [] }) ∧
  (∀ (s : State) (bs : List Byte) (es : List Event) (e : DecodeError), s.schedule = .steps (.framerWord bs :: es) →
    decode bs = .error e → step s = .refused .undecodable)

/-- R15, R64, R81: what each other entry of a schedule runs; where none is left the core goes on, or the clock without
input (log entries 2 and 20). A host step that R111 does not list is refused (log entry 13). -/
def Obligations.StepRunsTheScheduledAgent : Prop :=
  (∀ (s u : State) (es : List Event), u = { s with answer := .none, schedule := .steps es } →
    (s.schedule = .steps (.core :: es) → step s = exec (coreInstr u) u) ∧
    (s.schedule = .steps [] → es = [] → step s = exec (coreInstr u) u) ∧
    (s.schedule = .steps (.tick :: es) → step s = exec .tick u) ∧
    (∀ a n v, s.schedule = .steps (.start a n v :: es) → step s = exec (.hostStart a n v) u) ∧
    (s.schedule = .steps (.reset :: es) → step s = exec .hostReset u) ∧
    (∀ kind p, s.schedule = .steps (.framerRequest kind p :: es) → step s = exec (requestOf kind p) u) ∧
    (∀ e, s.schedule = .steps (.env e :: es) → step s = execEnv e u)) ∧
  (∀ (s u : State) (cs : List CycleEvent), u = { s with answer := .none, schedule := .cycles cs } →
    (∀ inputs, s.schedule = .cycles (.clk inputs :: cs) → step s = clockCycle inputs u) ∧
    (s.schedule = .cycles [] → cs = [] → step s = clockCycle ClockIn.quiet u) ∧
    (∀ inputs, s.schedule = .cycles (.framer inputs :: cs) →
      step s = .next { u with framer := u.framer.cycle inputs }) ∧
    (∀ e, s.schedule = .cycles (.env e :: cs) → step s = execEnv e u)) ∧
  (∀ u : State,
    (∀ b, execEnv (.rx b) u = exec (.remoteEnqueue b) u) ∧
    (∀ d r q, execEnv (.openLink d r q) u = if u.busy = true then .refused .hostDutyBroken else exec (.linkOpen d r q) u) ∧
    (execEnv .closeLink u = if u.state = .done then exec .linkClose u else .refused .hostDutyBroken) ∧
    (∀ image, execEnv (.loadImage image) u =
      if u.busy = true then .refused .hostDutyBroken else .next { u with img := Memory.ofBytes image }))

/-- R81: in every state of the invariant the core's step at the transaction level has an outcome of its own rule: it is
enabled, and with the Image held it answers a next state. -/
def Obligations.CoreStepIsEnabled : Prop :=
  ∀ s : State, Inv s → (s.busy = true → ∀ i < s.imgLen, (s.img.read i).isSome = true) →
    ∃ t, exec (coreInstr s) s = .next t

/-- The invariant holds right after reset. -/
def Obligations.InvariantHoldsAtReset : Prop :=
  Inv State.reset

/-- The invariant (R21, R26, R28, R85, R88, R105): every step keeps it, at either level. -/
def Obligations.EveryStepKeepsTheInvariant : Prop :=
  ∀ s t : State, Inv s → step s = .next t → Inv t

/-! ### Runs -/

/-- R110, R91: an accepted start command begins a run's history. -/
def Obligations.StartBeginsAHistory : Prop :=
  ∀ (a v : Word16) (image : List Byte) (s : State), s.state = .idle → s.linkOpen = true →
    s.img = Memory.ofBytes image →
    ∃ t, exec (.hostStart a image.length v) s = .next t ∧ RunHistory a image s.txlog s.diag.length t

/-- R91, R47, R92: whatever the agents do, short of reset, the writes of the run are a prefix of W in whole Blocks, and
between two writes lies exactly one acknowledged wait. -/
def Obligations.EveryEventKeepsTheHistory : Prop :=
  ∀ (a : Word16) (image : List Byte) (before : List (List Byte)) (echoed : Nat) (e : Event) (s t : State),
    RunHistory a image before echoed s → e ≠ .reset → execEvent e s = .next t → RunHistory a image before echoed t

/-- R65, R91: UPLOAD with every wait acknowledged in time ends in `Done` after exactly 1 + ceil(L/255) + 1 writes, those
of W, with one echoed line for each. The premise is the transaction level's own: the Link accepts every byte of every
write (R140, D16; log entry 24). -/
def Obligations.UploadSendsTheWholeImage : Prop :=
  ∀ (a v : Word16) (image : List Byte) (waits : List WaitPlay) (s : State), s.state = .idle → s.linkOpen = true →
    chunkCount image.length + 2 ≤ waits.length →
    (∀ p ∈ waits.take (chunkCount image.length + 2), p.acknowledges v) →
    ∃ t, exec (.upload a v image waits) s = .next t ∧ t.state = .done ∧ t.cursor = image.length ∧
      t.txlog = s.txlog ++ fullWrites a image ∧ (fullWrites a image).length = 1 + (image.length + 254) / 255 + 1 ∧
      t.wire = s.wire ++ (fullWrites a image).flatten ∧ t.linkOpen = true ∧ t.err = s.err ∧ t.rxbuf = [] ∧
      t.diag.length = s.diag.length + (image.length + 254) / 255 + 2 ∧ t.startAddr = a ∧ t.imgLen = image.length ∧
      t.timeoutMs = v ∧ t.img = Memory.ofBytes image ∧ t.linkDevice = s.linkDevice ∧ t.linkBaud = s.linkBaud

/-- R91, R92: whatever the remote end does, UPLOAD ends in `Done` or `Failed` with a non-empty prefix of W written, all
of it in `Done`; where the start command is ignored nothing changes. The premise is the transaction level's own: the Link
accepts every byte of every write (R140, D16; log entry 24). -/
def Obligations.UploadAlwaysEnds : Prop :=
  ∀ (a v : Word16) (image : List Byte) (waits : List WaitPlay) (s : State),
    (s.state = .idle → s.linkOpen = true →
      ∃ (t : State) (m : Nat), exec (.upload a v image waits) s = .next t ∧ 1 ≤ m ∧
        m ≤ (image.length + 254) / 255 + 2 ∧ t.txlog = s.txlog ++ (fullWrites a image).take m ∧
        t.startAddr = a ∧ t.imgLen = image.length ∧ t.timeoutMs = v ∧ t.img = Memory.ofBytes image ∧
        ((t.state = .done ∧ m = (image.length + 254) / 255 + 2) ∨
          (t.state = .failed ∧ t.err = .noAcknowledgment ∧ t.linkOpen = false))) ∧
    (s.state ≠ .idle ∨ s.linkOpen = false → exec (.upload a v image waits) s = .next s)

/-- R92, V-L1-10: with a Link that never delivers an `NL`, UPLOAD ends in `Failed` and the Start Address Block is the
only write. The premise is the transaction level's own: the Link accepts every byte of every write (R140, D16; log entry
24). -/
def Obligations.UploadWithoutAcknowledgmentFails : Prop :=
  ∀ (a v : Word16) (image : List Byte) (waits : List WaitPlay) (s : State), s.state = .idle → s.linkOpen = true →
    0x0A ∉ s.rxq → (∀ p ∈ waits, 0x0A ∉ p.line) →
    ∃ t, exec (.upload a v image waits) s = .next t ∧ t.state = .failed ∧ t.err = .noAcknowledgment ∧
      t.linkOpen = false ∧ t.cursor = 0 ∧ t.txlog = s.txlog ++ [startBlock a] ∧ t.diag = s.diag

/-! ### The clocked refinement -/

/-- R113: reset wins over every other input of the cycle, and in reset the strobes are 0. R20, R28, R29: the status outputs
show `state`, `err` and `cursor` in every cycle: the nine codes of `state`, the five of `err`, and `done`, `failed`, `busy`
for each state. -/
def Obligations.ResetWinsTheCycle : Prop :=
  (∀ (inputs : ClockIn) (s : State), inputs.rst = true →
    clockCycle inputs s = exec .hostReset s ∧ (ports inputs s).tx = none ∧ (ports inputs s).rxPop = false ∧
    (ports inputs s).linkClose = false ∧ (ports inputs s).diag = none) ∧
  (∀ (inputs : ClockIn) (s : State),
    (ports inputs s).cursorO = s.cursor ∧
    (∀ (st : SessionState) (code : BitVec 4) (d f b : Bool),
      (st, code, d, f, b) ∈
        [(SessionState.idle, 0, false, false, false), (.sendingStart, 1, false, false, true),
          (.awaitingStartAck, 2, false, false, true), (.sendingData, 3, false, false, true),
          (.awaitingDataAck, 4, false, false, true), (.sendingTrailer, 5, false, false, true),
          (.awaitingTrailerAck, 6, false, false, true), (.done, 7, true, false, false),
          (.failed, 8, false, true, false)] →
      s.state = st →
      (ports inputs s).stateO = code ∧ (ports inputs s).done = d ∧ (ports inputs s).failed = f ∧
        (ports inputs s).busy = b) ∧
    (∀ (e : ErrKind) (code : BitVec 3),
      (e, code) ∈ [(ErrKind.none, 0), (.invalidPayloadSize, 1), (.noAcknowledgment, 2), (.linkUnavailable, 3),
        (.invalidInput, 4)] →
      s.err = e → (ports inputs s).errO = code))

/-- R114: while a Block is being sent the transmit port offers its next byte, marked where it is the last. -/
def Obligations.TransmitPortOffersTheBlock : Prop :=
  ∀ (inputs : ClockIn) (s : State), ClockInv s → s.sendsBlock = true → inputs.rst = false →
    ∃ (bs : List Byte) (b : Byte), s.blockBytes? = some bs ∧ bs[s.byteIdx.toNat]? = some b ∧
      (ports inputs s).tx = some (b, decide (s.byteIdx.toNat + 1 = bs.length))

/-- R116: `img_addr` is driven in `SendingData` only, with values `cursor` to `cursor` + 254 below `img_len`. -/
def Obligations.ImagePortStaysInTheImage : Prop :=
  ∀ (inputs : ClockIn) (s : State) (addr : Nat), ClockInv s → (ports inputs s).imgAddr = some addr →
    s.state = .sendingData ∧ s.cursor ≤ addr ∧ addr ≤ s.cursor + 254 ∧ addr < s.imgLen

/-- R114: a Block goes out byte by byte, with stalls wherever the Link withholds `tx_ready`, and in the cycle of its last
byte the registers change as the transaction-level rule says; ticks meanwhile change nothing, a tick in the cycle of the
last byte included (log entry 19). R118: the same on the transmit port of the stand-alone Framer, from the cycle after a
legal request on (log entry 34): it hands over exactly `frame(kind, payload)`, `tx_last` with the last byte, and raises no
`fr_invalid`. -/
def Obligations.BlockGoesOutByteByByte : Prop :=
  (∀ (cs : List ClockIn) (last : ClockIn) (s : State) (bs : List Byte), ClockInv s → s.sendsBlock = true →
    s.byteIdx = 0 → s.blockBytes? = some bs → (∀ c ∈ cs ++ [last], c.rst = false) → last.txReady = true →
    (cs ++ [last]).countP (fun c => c.txReady) = bs.length →
    ∃ t u, cyclesOf (cs ++ [last]) s = .next t ∧ exec (coreInstr s) s = .next u ∧ t.view = u.view ∧
      t.txlog = s.txlog ++ [bs] ∧ t.wire = s.wire ++ bs) ∧
  (∀ (kind : Kind) (payload bs : List Byte) (req : FramerIn) (cs : List FramerIn) (last : FramerIn) (u : FramerUnit),
    frame kind payload = some bs → u = .idle ∨ u = .invalid → req.rst = false → req.request = some (kind, payload) →
    (∀ c ∈ cs ++ [last], c.rst = false) → last.txReady = true →
    (cs ++ [last]).countP (fun c => c.txReady) = bs.length →
    FramerUnit.transfers (cs ++ [last]) (u.cycle req) = bs.dropLast.map (fun b => (b, false)) ++ [(Config.trail, true)] ∧
    bs.getLast? = some Config.trail ∧ FramerUnit.cycles (cs ++ [last]) (u.cycle req) = .idle ∧
    ∀ k ≤ cs.length, ((FramerUnit.cycles (cs.take k) (u.cycle req)).ports last).frInvalid = false)

/-- R115: a drain of n bytes, sampled, popped one per cycle and evaluated, is one poll step. The number of cycles is the
model's reading (log entry 18). Outside reset the ports of a wait show it: `link_close` is 1 exactly in the cycle that
takes the timeout path; `rx_pop` is 1 exactly in the cycles that pop a byte, and in them R117 has the byte on the
diagnostic echo, `diag_last` marking the last one of a drain that ends in the acknowledgment path; outside the waits all
three are 0. -/
def Obligations.DrainIsOnePollStep : Prop :=
  (∀ (cs : List ClockIn) (s : State), s.state.isAwaiting = true → s.linkOpen = true → s.drain = none →
    s.wdElapsed.toNat < s.timeoutMs.toNat → s.rxq ≠ [] → cs.length = s.rxq.length + 2 →
    (∀ c ∈ cs, c.rst = false ∧ c.tickMs = false) →
    ∃ t u, cyclesOf cs s = .next t ∧ exec .awaitPoll s = .next u ∧ t.view = u.view) ∧
  (∀ (inputs : ClockIn) (s : State), inputs.rst = false → s.state.isAwaiting = true → s.linkOpen = true →
    (s.drain = none → (ports inputs s).rxPop = false ∧ (ports inputs s).diag = none ∧
      ((ports inputs s).linkClose = true ↔ s.timeoutMs.toNat ≤ s.wdElapsed.toNat) ∧
      ((ports inputs s).linkClose = true → clockCycle inputs s = exec .awaitTimeout s)) ∧
    (∀ (k : Nat) (b : Byte) (q : List Byte), s.drain = some (k + 1) → s.rxq = b :: q →
      (ports inputs s).rxPop = true ∧ (ports inputs s).linkClose = false ∧
      (ports inputs s).diag = some (b, decide (k = 0 ∧ 0x0A ∈ s.rxbuf ++ [b])) ∧
      ∃ t, clockCycle inputs s = .next t ∧ t.rxq = q ∧ t.rxbuf = s.rxbuf ++ [b] ∧ t.drain = some k) ∧
    (s.drain = some 0 →
      (ports inputs s).rxPop = false ∧ (ports inputs s).linkClose = false ∧ (ports inputs s).diag = none)) ∧
  (∀ (inputs : ClockIn) (s : State), s.state.isAwaiting = false →
    (ports inputs s).rxPop = false ∧ (ports inputs s).linkClose = false ∧ (ports inputs s).diag = none)

/-- In every state of the clocked invariant a clock cycle has a next state, and the composed core's own `fr_invalid` is 0
(R118, R122). -/
def Obligations.ClockNeverStops : Prop :=
  ∀ (inputs : ClockIn) (s : State), ClockInv s →
    (∃ t, clockCycle inputs s = .next t) ∧ (ports inputs s).frInvalid = false

/-- The clocked invariant (R114, R115): every cycle keeps it, for a host that presents an Image as long as the length it
latches (R110, R137). -/
def Obligations.EveryCycleKeepsTheClockedInvariant : Prop :=
  ∀ (inputs : ClockIn) (s t : State), ClockInv s →
    (inputs.start = true → ∀ i < inputs.imgLenI, (s.img.read i).isSome = true) →
    clockCycle inputs s = .next t → ClockInv t

/-- R119: every cycle of the clocked hardware is the transaction-level steps of that cycle, with the same log, the same
reads, the same `state`, `err`, `cursor` and every other field the two levels share. A reset in the middle of a drain
leaves bytes in the queue that the atomic poll step has read; there the queue and the echo are left out (log entry 18). That the
step of R85 takes one cycle of its own is the model's choice (log entry 35). -/
def Obligations.ClockRefinesTheTransactionLevel : Prop :=
  ∀ (inputs : ClockIn) (s t : State), ClockInv s → clockCycle inputs s = .next t →
    ∃ u, eventsOf (cycleEvents inputs s) s.transaction = .next u ∧
      (inputs.rst = false ∨ s.drain = none → u.view = t.transaction) ∧
      { u.view with rxq := [], diag := [] } = { t.transaction with rxq := [], diag := [] }
end

