-- ==== Sys2Proof/Laws/Encoding.lean ====
section
/-! SUPPORT. The checksum, the Framer, the encoder and the decoder: one lemma for what each can do. -/

namespace Sys2Proof.Machine

/-! ### The checksum -/

theorem checksumFrom_add (a b : Byte) (bs : List Byte) :
    checksumFrom (a + b) bs = a + checksumFrom b bs := by
  induction bs generalizing b with
  | nil => rfl
  | cons x bs ih => rw [checksumFrom, checksumFrom, BitVec.add_assoc, ih]

theorem checksumFrom_eq (acc : Byte) (bs : List Byte) : checksumFrom acc bs = acc + checksum bs := by
  have h := checksumFrom_add acc 0 bs
  rwa [show acc + (0 : Byte) = acc from BitVec.add_zero acc] at h

@[simp] theorem checksum_nil : checksum [] = 0 := rfl

theorem checksum_cons (b : Byte) (bs : List Byte) : checksum (b :: bs) = b + checksum bs := by
  rw [checksum, checksumFrom, show (0 : Byte) + b = b from BitVec.zero_add b, checksumFrom_eq]

theorem checksumFrom_append (acc : Byte) (as bs : List Byte) :
    checksumFrom acc (as ++ bs) = checksumFrom (checksumFrom acc as) bs := by
  induction as generalizing acc with
  | nil => rfl
  | cons a as ih => exact ih (acc + a)

theorem checksum_concat (bs : List Byte) (b : Byte) : checksum (bs ++ [b]) = checksum bs + b := by
  rw [checksum, checksumFrom_append]; rfl

/-! ### Operands -/

theorem lenByte_toNat {n : Nat} (h : n ≤ 255) : (lenByte n).toNat = n := by
  simp only [lenByte, BitVec.toNat_ofNat]; omega

@[simp] theorem be16_length (a : Word16) : (be16 a).length = 2 := rfl

theorem chunkSize_le (imgLen cursor : Nat) : chunkSize imgLen cursor ≤ 255 := Nat.min_le_left _ _

theorem chunkSize_le_rest (imgLen cursor : Nat) : chunkSize imgLen cursor ≤ imgLen - cursor := Nat.min_le_right _ _

theorem chunkSize_pos {imgLen cursor : Nat} (h : cursor < imgLen) : 1 ≤ chunkSize imgLen cursor := by
  simp only [chunkSize, Config.chunkMax]; omega

theorem hasNewline_iff (bs : List Byte) : hasNewline bs = true ↔ 0x0A ∈ bs := by
  simp [hasNewline, Config.newline]

theorem hasNewline_append (as bs : List Byte) : hasNewline (as ++ bs) = (hasNewline as || hasNewline bs) := by
  simp [hasNewline]

end Sys2Proof.Machine

namespace Sys2Proof

theorem Kind.legalLen_start (n : Nat) : Kind.start.legalLen n = true ↔ n = 2 := by
  simp [Kind.legalLen, Config.startLen]

theorem Kind.legalLen_data (n : Nat) : Kind.data.legalLen n = true ↔ 1 ≤ n ∧ n ≤ 255 := by
  simp [Kind.legalLen, Config.chunkMax]

theorem Kind.legalLen_trailer (n : Nat) : Kind.trailer.legalLen n = true ↔ n = 0 := by
  simp [Kind.legalLen]

theorem Kind.legalLen_le {kind : Kind} {n : Nat} (h : kind.legalLen n = true) : n ≤ 255 := by
  cases kind <;> simp [Kind.legalLen, Config.startLen, Config.chunkMax] at h <;> omega

@[simp] theorem Kind.ofByte?_byte (kind : Kind) : Kind.ofByte? kind.byte = some kind := by
  cases kind <;> rfl

theorem Kind.byte_of_ofByte? {b : Byte} {kind : Kind} (h : Kind.ofByte? b = some kind) : kind.byte = b := by
  simp only [Kind.ofByte?] at h
  split at h
  · cases h; exact (‹b = _›).symm
  · split at h
    · cases h; exact (‹b = _›).symm
    · split at h
      · cases h; exact (‹b = _›).symm
      · cases h

@[simp] theorem layoutBlock_length (kind : Kind) (payload : List Byte) :
    (layoutBlock kind payload).length = payload.length + 6 := by
  simp [layoutBlock]

/-- The decoder on any kind and payload that fits the length byte, whatever follows the payload. -/
theorem decode_layout (kind : Kind) (payload tail : List Byte) (h : payload.length ≤ 255) :
    decode ([Config.head, Config.sync, kind.byte, Machine.lenByte payload.length] ++ payload ++ tail)
      = decodeTail kind payload tail := by
  simp [decode, decodeBody, Machine.lenByte_toNat h]

/-- Every decoded operation is a Framer request. -/
theorem decode_is_request {bs : List Byte} {i : Instr} (h : decode bs = .ok i) :
    ∃ kind payload, i = requestOf kind payload := by
  unfold decode at h
  split at h
  · split at h
    · cases h
    · split at h
      · cases h
      · split at h
        · cases h
        · unfold decodeBody at h
          split at h
          · cases h
          · unfold decodeTail at h
            split at h
            · exact ⟨_, _, (Except.ok.inj h).symm⟩
            · split at h
              · cases h
              · split at h
                · cases h
                · split at h
                  · cases h
                  · exact ⟨_, _, (Except.ok.inj h).symm⟩
            · cases h
  · cases h

end Sys2Proof
end

