-- ==== Sys2Proof/Laws/Memory.lean ====
section
/-! SUPPORT. The Image: loading keeps the canonical form, and what reads give. -/

namespace Sys2Proof.Machine

theorem Memory.risesFrom_ofBytesAt (i low : Nat) (h : low ≤ i) (bs : List Byte) :
    Memory.risesFrom low (Memory.ofBytesAt i bs) = true := by
  induction bs generalizing i low with
  | nil => rfl
  | cons b bs ih => simp [Memory.ofBytesAt, Memory.risesFrom, h, ih (i + 1) (i + 1) (Nat.le_refl _)]

/-- Loading an Image gives a memory in canonical form. -/
@[simp] theorem Memory.ofBytes_wf (bs : List Byte) : (Memory.ofBytes bs).wf = true :=
  Memory.risesFrom_ofBytesAt 0 0 (Nat.le_refl _) bs

theorem Memory.read_ofBytesAt (i k : Nat) (bs : List Byte) :
    (Memory.ofBytesAt i bs).read (i + k) = bs[k]? := by
  induction bs generalizing i k with
  | nil => rfl
  | cons b bs ih =>
    cases k with
    | zero => simp [Memory.ofBytesAt, Memory.read]
    | succ k =>
      have h := ih (i + 1) k
      rw [Nat.add_right_comm, Nat.add_assoc] at h
      simpa [Memory.ofBytesAt, Memory.read] using h

/-- Offset `k` of the Image of a byte sequence reads as its element `k`, and as nothing past its end. -/
@[simp] theorem Memory.read_ofBytes (bs : List Byte) (k : Nat) : (Memory.ofBytes bs).read k = bs[k]? := by
  have h := Memory.read_ofBytesAt 0 k bs
  rwa [Nat.zero_add] at h

theorem Memory.readMany_isSome {m : Memory} {i n : Nat} (h : ∀ j < n, (m.read (i + j)).isSome = true) :
    ∃ bs, m.readMany i n = some bs := by
  induction n generalizing i with
  | zero => exact ⟨[], rfl⟩
  | succ n ih =>
    obtain ⟨b, hb⟩ := Option.isSome_iff_exists.1 (h 0 (by omega))
    obtain ⟨bs, hbs⟩ := ih (i := i + 1) fun j hj => by
      have := h (j + 1) (by omega)
      rwa [show i + (j + 1) = i + 1 + j by omega] at this
    exact ⟨b :: bs, by simp [Memory.readMany, hbs, show m.read i = some b from hb]⟩

/-- What a read of `n` bytes gives: exactly `n`, each the byte at its offset. -/
theorem Memory.readMany_spec {m : Memory} {i n : Nat} {bs : List Byte} (h : m.readMany i n = some bs) :
    bs.length = n ∧ ∀ j < n, bs[j]? = m.read (i + j) := by
  induction n generalizing i bs with
  | zero => simp [Memory.readMany] at h; subst h; simp
  | succ n ih =>
    simp only [Memory.readMany] at h
    split at h
    · rename_i b rest hb hrest
      cases h
      obtain ⟨hlen, hget⟩ := ih hrest
      refine ⟨by simp [hlen], fun j hj => ?_⟩
      cases j with
      | zero => simpa using hb.symm
      | succ j => simpa [Nat.add_assoc, Nat.add_comm 1] using hget j (by omega)
    · cases h

/-- A slice of the Image of a byte sequence. -/
theorem Memory.readMany_ofBytes (bs : List Byte) (i n : Nat) (h : i + n ≤ bs.length) :
    (Memory.ofBytes bs).readMany i n = some ((bs.drop i).take n) := by
  obtain ⟨r, hr⟩ := Memory.readMany_isSome (m := Memory.ofBytes bs) (i := i) (n := n) fun j hj => by
    simp; omega
  obtain ⟨hlen, hget⟩ := Memory.readMany_spec hr
  rw [hr]
  congr 1
  apply List.ext_getElem?
  intro j
  by_cases hj : j < n
  · rw [hget j hj, Memory.read_ofBytes, List.getElem?_take_of_lt hj, List.getElem?_drop]
  · rw [List.getElem?_eq_none (by omega), List.getElem?_eq_none (by simp; omega)]

end Sys2Proof.Machine
end

