-- ==== Sys2Proof/Laws/State.lean ====
section
/-! SUPPORT. What each register update leaves in each field: one lemma per field per update, so that no proof unfolds a
record update. -/

namespace Sys2Proof.Machine

variable (s : State)

/-! ### `State.loadImage` -/

@[simp] theorem State.loadImage_state (image : List Byte) : (s.loadImage image).state = s.state := rfl
@[simp] theorem State.loadImage_startAddr (image : List Byte) : (s.loadImage image).startAddr = s.startAddr := rfl
@[simp] theorem State.loadImage_imgLen (image : List Byte) : (s.loadImage image).imgLen = s.imgLen := rfl
@[simp] theorem State.loadImage_timeoutMs (image : List Byte) : (s.loadImage image).timeoutMs = s.timeoutMs := rfl
@[simp] theorem State.loadImage_cursor (image : List Byte) : (s.loadImage image).cursor = s.cursor := rfl
@[simp] theorem State.loadImage_wdElapsed (image : List Byte) : (s.loadImage image).wdElapsed = s.wdElapsed := rfl
@[simp] theorem State.loadImage_rxbuf (image : List Byte) : (s.loadImage image).rxbuf = s.rxbuf := rfl
@[simp] theorem State.loadImage_err (image : List Byte) : (s.loadImage image).err = s.err := rfl
@[simp] theorem State.loadImage_blkKind (image : List Byte) : (s.loadImage image).blkKind = s.blkKind := rfl
@[simp] theorem State.loadImage_blkLen (image : List Byte) : (s.loadImage image).blkLen = s.blkLen := rfl
@[simp] theorem State.loadImage_cksAcc (image : List Byte) : (s.loadImage image).cksAcc = s.cksAcc := rfl
@[simp] theorem State.loadImage_byteIdx (image : List Byte) : (s.loadImage image).byteIdx = s.byteIdx := rfl
@[simp] theorem State.loadImage_drain (image : List Byte) : (s.loadImage image).drain = s.drain := rfl
@[simp] theorem State.loadImage_img (image : List Byte) : (s.loadImage image).img = Memory.ofBytes image := rfl
@[simp] theorem State.loadImage_linkOpen (image : List Byte) : (s.loadImage image).linkOpen = s.linkOpen := rfl
@[simp] theorem State.loadImage_linkDevice (image : List Byte) : (s.loadImage image).linkDevice = s.linkDevice := rfl
@[simp] theorem State.loadImage_linkBaud (image : List Byte) : (s.loadImage image).linkBaud = s.linkBaud := rfl
@[simp] theorem State.loadImage_rxq (image : List Byte) : (s.loadImage image).rxq = s.rxq := rfl
@[simp] theorem State.loadImage_txlog (image : List Byte) : (s.loadImage image).txlog = s.txlog := rfl
@[simp] theorem State.loadImage_txPart (image : List Byte) : (s.loadImage image).txPart = s.txPart := rfl
@[simp] theorem State.loadImage_wire (image : List Byte) : (s.loadImage image).wire = s.wire := rfl
@[simp] theorem State.loadImage_diag (image : List Byte) : (s.loadImage image).diag = s.diag := rfl
@[simp] theorem State.loadImage_framer (image : List Byte) : (s.loadImage image).framer = s.framer := rfl
@[simp] theorem State.loadImage_answer (image : List Byte) : (s.loadImage image).answer = s.answer := rfl
@[simp] theorem State.loadImage_freeCtr (image : List Byte) : (s.loadImage image).freeCtr = s.freeCtr := rfl
@[simp] theorem State.loadImage_schedule (image : List Byte) : (s.loadImage image).schedule = s.schedule := rfl

/-! ### `State.pushWrite` -/

@[simp] theorem State.pushWrite_state (bs : List Byte) : (s.pushWrite bs).state = s.state := rfl
@[simp] theorem State.pushWrite_startAddr (bs : List Byte) : (s.pushWrite bs).startAddr = s.startAddr := rfl
@[simp] theorem State.pushWrite_imgLen (bs : List Byte) : (s.pushWrite bs).imgLen = s.imgLen := rfl
@[simp] theorem State.pushWrite_timeoutMs (bs : List Byte) : (s.pushWrite bs).timeoutMs = s.timeoutMs := rfl
@[simp] theorem State.pushWrite_cursor (bs : List Byte) : (s.pushWrite bs).cursor = s.cursor := rfl
@[simp] theorem State.pushWrite_wdElapsed (bs : List Byte) : (s.pushWrite bs).wdElapsed = s.wdElapsed := rfl
@[simp] theorem State.pushWrite_rxbuf (bs : List Byte) : (s.pushWrite bs).rxbuf = s.rxbuf := rfl
@[simp] theorem State.pushWrite_err (bs : List Byte) : (s.pushWrite bs).err = s.err := rfl
@[simp] theorem State.pushWrite_blkKind (bs : List Byte) : (s.pushWrite bs).blkKind = s.blkKind := rfl
@[simp] theorem State.pushWrite_blkLen (bs : List Byte) : (s.pushWrite bs).blkLen = s.blkLen := rfl
@[simp] theorem State.pushWrite_cksAcc (bs : List Byte) : (s.pushWrite bs).cksAcc = s.cksAcc := rfl
@[simp] theorem State.pushWrite_byteIdx (bs : List Byte) : (s.pushWrite bs).byteIdx = s.byteIdx := rfl
@[simp] theorem State.pushWrite_drain (bs : List Byte) : (s.pushWrite bs).drain = s.drain := rfl
@[simp] theorem State.pushWrite_img (bs : List Byte) : (s.pushWrite bs).img = s.img := rfl
@[simp] theorem State.pushWrite_linkOpen (bs : List Byte) : (s.pushWrite bs).linkOpen = s.linkOpen := rfl
@[simp] theorem State.pushWrite_linkDevice (bs : List Byte) : (s.pushWrite bs).linkDevice = s.linkDevice := rfl
@[simp] theorem State.pushWrite_linkBaud (bs : List Byte) : (s.pushWrite bs).linkBaud = s.linkBaud := rfl
@[simp] theorem State.pushWrite_rxq (bs : List Byte) : (s.pushWrite bs).rxq = s.rxq := rfl
@[simp] theorem State.pushWrite_txlog (bs : List Byte) : (s.pushWrite bs).txlog = s.txlog ++ [bs] := rfl
@[simp] theorem State.pushWrite_txPart (bs : List Byte) : (s.pushWrite bs).txPart = s.txPart := rfl
@[simp] theorem State.pushWrite_wire (bs : List Byte) : (s.pushWrite bs).wire = s.wire ++ bs := rfl
@[simp] theorem State.pushWrite_diag (bs : List Byte) : (s.pushWrite bs).diag = s.diag := rfl
@[simp] theorem State.pushWrite_framer (bs : List Byte) : (s.pushWrite bs).framer = s.framer := rfl
@[simp] theorem State.pushWrite_answer (bs : List Byte) : (s.pushWrite bs).answer = s.answer := rfl
@[simp] theorem State.pushWrite_freeCtr (bs : List Byte) : (s.pushWrite bs).freeCtr = s.freeCtr := rfl
@[simp] theorem State.pushWrite_schedule (bs : List Byte) : (s.pushWrite bs).schedule = s.schedule := rfl

/-! ### `State.dropRx` -/

@[simp] theorem State.dropRx_state (n : Nat) : (s.dropRx n).state = s.state := rfl
@[simp] theorem State.dropRx_startAddr (n : Nat) : (s.dropRx n).startAddr = s.startAddr := rfl
@[simp] theorem State.dropRx_imgLen (n : Nat) : (s.dropRx n).imgLen = s.imgLen := rfl
@[simp] theorem State.dropRx_timeoutMs (n : Nat) : (s.dropRx n).timeoutMs = s.timeoutMs := rfl
@[simp] theorem State.dropRx_cursor (n : Nat) : (s.dropRx n).cursor = s.cursor := rfl
@[simp] theorem State.dropRx_wdElapsed (n : Nat) : (s.dropRx n).wdElapsed = s.wdElapsed := rfl
@[simp] theorem State.dropRx_rxbuf (n : Nat) : (s.dropRx n).rxbuf = s.rxbuf := rfl
@[simp] theorem State.dropRx_err (n : Nat) : (s.dropRx n).err = s.err := rfl
@[simp] theorem State.dropRx_blkKind (n : Nat) : (s.dropRx n).blkKind = s.blkKind := rfl
@[simp] theorem State.dropRx_blkLen (n : Nat) : (s.dropRx n).blkLen = s.blkLen := rfl
@[simp] theorem State.dropRx_cksAcc (n : Nat) : (s.dropRx n).cksAcc = s.cksAcc := rfl
@[simp] theorem State.dropRx_byteIdx (n : Nat) : (s.dropRx n).byteIdx = s.byteIdx := rfl
@[simp] theorem State.dropRx_drain (n : Nat) : (s.dropRx n).drain = s.drain := rfl
@[simp] theorem State.dropRx_img (n : Nat) : (s.dropRx n).img = s.img := rfl
@[simp] theorem State.dropRx_linkOpen (n : Nat) : (s.dropRx n).linkOpen = s.linkOpen := rfl
@[simp] theorem State.dropRx_linkDevice (n : Nat) : (s.dropRx n).linkDevice = s.linkDevice := rfl
@[simp] theorem State.dropRx_linkBaud (n : Nat) : (s.dropRx n).linkBaud = s.linkBaud := rfl
@[simp] theorem State.dropRx_rxq (n : Nat) : (s.dropRx n).rxq = s.rxq.drop n := rfl
@[simp] theorem State.dropRx_txlog (n : Nat) : (s.dropRx n).txlog = s.txlog := rfl
@[simp] theorem State.dropRx_txPart (n : Nat) : (s.dropRx n).txPart = s.txPart := rfl
@[simp] theorem State.dropRx_wire (n : Nat) : (s.dropRx n).wire = s.wire := rfl
@[simp] theorem State.dropRx_diag (n : Nat) : (s.dropRx n).diag = s.diag := rfl
@[simp] theorem State.dropRx_framer (n : Nat) : (s.dropRx n).framer = s.framer := rfl
@[simp] theorem State.dropRx_answer (n : Nat) : (s.dropRx n).answer = s.answer := rfl
@[simp] theorem State.dropRx_freeCtr (n : Nat) : (s.dropRx n).freeCtr = s.freeCtr := rfl
@[simp] theorem State.dropRx_schedule (n : Nat) : (s.dropRx n).schedule = s.schedule := rfl

/-! ### `State.closeLink` -/

@[simp] theorem State.closeLink_state : (s.closeLink).state = s.state := rfl
@[simp] theorem State.closeLink_startAddr : (s.closeLink).startAddr = s.startAddr := rfl
@[simp] theorem State.closeLink_imgLen : (s.closeLink).imgLen = s.imgLen := rfl
@[simp] theorem State.closeLink_timeoutMs : (s.closeLink).timeoutMs = s.timeoutMs := rfl
@[simp] theorem State.closeLink_cursor : (s.closeLink).cursor = s.cursor := rfl
@[simp] theorem State.closeLink_wdElapsed : (s.closeLink).wdElapsed = s.wdElapsed := rfl
@[simp] theorem State.closeLink_rxbuf : (s.closeLink).rxbuf = s.rxbuf := rfl
@[simp] theorem State.closeLink_err : (s.closeLink).err = s.err := rfl
@[simp] theorem State.closeLink_blkKind : (s.closeLink).blkKind = s.blkKind := rfl
@[simp] theorem State.closeLink_blkLen : (s.closeLink).blkLen = s.blkLen := rfl
@[simp] theorem State.closeLink_cksAcc : (s.closeLink).cksAcc = s.cksAcc := rfl
@[simp] theorem State.closeLink_byteIdx : (s.closeLink).byteIdx = s.byteIdx := rfl
@[simp] theorem State.closeLink_drain : (s.closeLink).drain = s.drain := rfl
@[simp] theorem State.closeLink_img : (s.closeLink).img = s.img := rfl
@[simp] theorem State.closeLink_linkOpen : (s.closeLink).linkOpen = false := rfl
@[simp] theorem State.closeLink_linkDevice : (s.closeLink).linkDevice = s.linkDevice := rfl
@[simp] theorem State.closeLink_linkBaud : (s.closeLink).linkBaud = s.linkBaud := rfl
@[simp] theorem State.closeLink_rxq : (s.closeLink).rxq = s.rxq := rfl
@[simp] theorem State.closeLink_txlog : (s.closeLink).txlog = s.txlog := rfl
@[simp] theorem State.closeLink_txPart : (s.closeLink).txPart = s.txPart := rfl
@[simp] theorem State.closeLink_wire : (s.closeLink).wire = s.wire := rfl
@[simp] theorem State.closeLink_diag : (s.closeLink).diag = s.diag := rfl
@[simp] theorem State.closeLink_framer : (s.closeLink).framer = s.framer := rfl
@[simp] theorem State.closeLink_answer : (s.closeLink).answer = s.answer := rfl
@[simp] theorem State.closeLink_freeCtr : (s.closeLink).freeCtr = s.freeCtr := rfl
@[simp] theorem State.closeLink_schedule : (s.closeLink).schedule = s.schedule := rfl

/-! ### `State.openLink` -/

@[simp] theorem State.openLink_state (d : String) (r : Nat) (q : List Byte) : (s.openLink d r q).state = s.state := rfl
@[simp] theorem State.openLink_startAddr (d : String) (r : Nat) (q : List Byte) : (s.openLink d r q).startAddr = s.startAddr := rfl
@[simp] theorem State.openLink_imgLen (d : String) (r : Nat) (q : List Byte) : (s.openLink d r q).imgLen = s.imgLen := rfl
@[simp] theorem State.openLink_timeoutMs (d : String) (r : Nat) (q : List Byte) : (s.openLink d r q).timeoutMs = s.timeoutMs := rfl
@[simp] theorem State.openLink_cursor (d : String) (r : Nat) (q : List Byte) : (s.openLink d r q).cursor = s.cursor := rfl
@[simp] theorem State.openLink_wdElapsed (d : String) (r : Nat) (q : List Byte) : (s.openLink d r q).wdElapsed = s.wdElapsed := rfl
@[simp] theorem State.openLink_rxbuf (d : String) (r : Nat) (q : List Byte) : (s.openLink d r q).rxbuf = s.rxbuf := rfl
@[simp] theorem State.openLink_err (d : String) (r : Nat) (q : List Byte) : (s.openLink d r q).err = s.err := rfl
@[simp] theorem State.openLink_blkKind (d : String) (r : Nat) (q : List Byte) : (s.openLink d r q).blkKind = s.blkKind := rfl
@[simp] theorem State.openLink_blkLen (d : String) (r : Nat) (q : List Byte) : (s.openLink d r q).blkLen = s.blkLen := rfl
@[simp] theorem State.openLink_cksAcc (d : String) (r : Nat) (q : List Byte) : (s.openLink d r q).cksAcc = s.cksAcc := rfl
@[simp] theorem State.openLink_byteIdx (d : String) (r : Nat) (q : List Byte) : (s.openLink d r q).byteIdx = s.byteIdx := rfl
@[simp] theorem State.openLink_drain (d : String) (r : Nat) (q : List Byte) : (s.openLink d r q).drain = s.drain := rfl
@[simp] theorem State.openLink_img (d : String) (r : Nat) (q : List Byte) : (s.openLink d r q).img = s.img := rfl
@[simp] theorem State.openLink_linkOpen (d : String) (r : Nat) (q : List Byte) : (s.openLink d r q).linkOpen = true := rfl
@[simp] theorem State.openLink_linkDevice (d : String) (r : Nat) (q : List Byte) : (s.openLink d r q).linkDevice = d := rfl
@[simp] theorem State.openLink_linkBaud (d : String) (r : Nat) (q : List Byte) : (s.openLink d r q).linkBaud = r := rfl
@[simp] theorem State.openLink_rxq (d : String) (r : Nat) (q : List Byte) : (s.openLink d r q).rxq = q := rfl
@[simp] theorem State.openLink_txlog (d : String) (r : Nat) (q : List Byte) : (s.openLink d r q).txlog = s.txlog := rfl
@[simp] theorem State.openLink_txPart (d : String) (r : Nat) (q : List Byte) : (s.openLink d r q).txPart = s.txPart := rfl
@[simp] theorem State.openLink_wire (d : String) (r : Nat) (q : List Byte) : (s.openLink d r q).wire = s.wire := rfl
@[simp] theorem State.openLink_diag (d : String) (r : Nat) (q : List Byte) : (s.openLink d r q).diag = s.diag := rfl
@[simp] theorem State.openLink_framer (d : String) (r : Nat) (q : List Byte) : (s.openLink d r q).framer = s.framer := rfl
@[simp] theorem State.openLink_answer (d : String) (r : Nat) (q : List Byte) : (s.openLink d r q).answer = s.answer := rfl
@[simp] theorem State.openLink_freeCtr (d : String) (r : Nat) (q : List Byte) : (s.openLink d r q).freeCtr = s.freeCtr := rfl
@[simp] theorem State.openLink_schedule (d : String) (r : Nat) (q : List Byte) : (s.openLink d r q).schedule = s.schedule := rfl

/-! ### `State.pushRx` -/

@[simp] theorem State.pushRx_state (b : Byte) : (s.pushRx b).state = s.state := rfl
@[simp] theorem State.pushRx_startAddr (b : Byte) : (s.pushRx b).startAddr = s.startAddr := rfl
@[simp] theorem State.pushRx_imgLen (b : Byte) : (s.pushRx b).imgLen = s.imgLen := rfl
@[simp] theorem State.pushRx_timeoutMs (b : Byte) : (s.pushRx b).timeoutMs = s.timeoutMs := rfl
@[simp] theorem State.pushRx_cursor (b : Byte) : (s.pushRx b).cursor = s.cursor := rfl
@[simp] theorem State.pushRx_wdElapsed (b : Byte) : (s.pushRx b).wdElapsed = s.wdElapsed := rfl
@[simp] theorem State.pushRx_rxbuf (b : Byte) : (s.pushRx b).rxbuf = s.rxbuf := rfl
@[simp] theorem State.pushRx_err (b : Byte) : (s.pushRx b).err = s.err := rfl
@[simp] theorem State.pushRx_blkKind (b : Byte) : (s.pushRx b).blkKind = s.blkKind := rfl
@[simp] theorem State.pushRx_blkLen (b : Byte) : (s.pushRx b).blkLen = s.blkLen := rfl
@[simp] theorem State.pushRx_cksAcc (b : Byte) : (s.pushRx b).cksAcc = s.cksAcc := rfl
@[simp] theorem State.pushRx_byteIdx (b : Byte) : (s.pushRx b).byteIdx = s.byteIdx := rfl
@[simp] theorem State.pushRx_drain (b : Byte) : (s.pushRx b).drain = s.drain := rfl
@[simp] theorem State.pushRx_img (b : Byte) : (s.pushRx b).img = s.img := rfl
@[simp] theorem State.pushRx_linkOpen (b : Byte) : (s.pushRx b).linkOpen = s.linkOpen := rfl
@[simp] theorem State.pushRx_linkDevice (b : Byte) : (s.pushRx b).linkDevice = s.linkDevice := rfl
@[simp] theorem State.pushRx_linkBaud (b : Byte) : (s.pushRx b).linkBaud = s.linkBaud := rfl
@[simp] theorem State.pushRx_rxq (b : Byte) : (s.pushRx b).rxq = s.rxq ++ [b] := rfl
@[simp] theorem State.pushRx_txlog (b : Byte) : (s.pushRx b).txlog = s.txlog := rfl
@[simp] theorem State.pushRx_txPart (b : Byte) : (s.pushRx b).txPart = s.txPart := rfl
@[simp] theorem State.pushRx_wire (b : Byte) : (s.pushRx b).wire = s.wire := rfl
@[simp] theorem State.pushRx_diag (b : Byte) : (s.pushRx b).diag = s.diag := rfl
@[simp] theorem State.pushRx_framer (b : Byte) : (s.pushRx b).framer = s.framer := rfl
@[simp] theorem State.pushRx_answer (b : Byte) : (s.pushRx b).answer = s.answer := rfl
@[simp] theorem State.pushRx_freeCtr (b : Byte) : (s.pushRx b).freeCtr = s.freeCtr := rfl
@[simp] theorem State.pushRx_schedule (b : Byte) : (s.pushRx b).schedule = s.schedule := rfl

/-! ### `State.goto` -/

@[simp] theorem State.goto_state (st : SessionState) : (s.goto st).state = st := rfl
@[simp] theorem State.goto_startAddr (st : SessionState) : (s.goto st).startAddr = s.startAddr := rfl
@[simp] theorem State.goto_imgLen (st : SessionState) : (s.goto st).imgLen = s.imgLen := rfl
@[simp] theorem State.goto_timeoutMs (st : SessionState) : (s.goto st).timeoutMs = s.timeoutMs := rfl
@[simp] theorem State.goto_cursor (st : SessionState) : (s.goto st).cursor = s.cursor := rfl
@[simp] theorem State.goto_wdElapsed (st : SessionState) : (s.goto st).wdElapsed = s.wdElapsed := rfl
@[simp] theorem State.goto_rxbuf (st : SessionState) : (s.goto st).rxbuf = s.rxbuf := rfl
@[simp] theorem State.goto_err (st : SessionState) : (s.goto st).err = s.err := rfl
@[simp] theorem State.goto_blkKind (st : SessionState) : (s.goto st).blkKind = s.blkKind := rfl
@[simp] theorem State.goto_blkLen (st : SessionState) : (s.goto st).blkLen = s.blkLen := rfl
@[simp] theorem State.goto_cksAcc (st : SessionState) : (s.goto st).cksAcc = s.cksAcc := rfl
@[simp] theorem State.goto_byteIdx (st : SessionState) : (s.goto st).byteIdx = s.byteIdx := rfl
@[simp] theorem State.goto_drain (st : SessionState) : (s.goto st).drain = s.drain := rfl
@[simp] theorem State.goto_img (st : SessionState) : (s.goto st).img = s.img := rfl
@[simp] theorem State.goto_linkOpen (st : SessionState) : (s.goto st).linkOpen = s.linkOpen := rfl
@[simp] theorem State.goto_linkDevice (st : SessionState) : (s.goto st).linkDevice = s.linkDevice := rfl
@[simp] theorem State.goto_linkBaud (st : SessionState) : (s.goto st).linkBaud = s.linkBaud := rfl
@[simp] theorem State.goto_rxq (st : SessionState) : (s.goto st).rxq = s.rxq := rfl
@[simp] theorem State.goto_txlog (st : SessionState) : (s.goto st).txlog = s.txlog := rfl
@[simp] theorem State.goto_txPart (st : SessionState) : (s.goto st).txPart = s.txPart := rfl
@[simp] theorem State.goto_wire (st : SessionState) : (s.goto st).wire = s.wire := rfl
@[simp] theorem State.goto_diag (st : SessionState) : (s.goto st).diag = s.diag := rfl
@[simp] theorem State.goto_framer (st : SessionState) : (s.goto st).framer = s.framer := rfl
@[simp] theorem State.goto_answer (st : SessionState) : (s.goto st).answer = s.answer := rfl
@[simp] theorem State.goto_freeCtr (st : SessionState) : (s.goto st).freeCtr = s.freeCtr := rfl
@[simp] theorem State.goto_schedule (st : SessionState) : (s.goto st).schedule = s.schedule := rfl

/-! ### `State.answering` -/

@[simp] theorem State.answering_state (a : Answer) : (s.answering a).state = s.state := rfl
@[simp] theorem State.answering_startAddr (a : Answer) : (s.answering a).startAddr = s.startAddr := rfl
@[simp] theorem State.answering_imgLen (a : Answer) : (s.answering a).imgLen = s.imgLen := rfl
@[simp] theorem State.answering_timeoutMs (a : Answer) : (s.answering a).timeoutMs = s.timeoutMs := rfl
@[simp] theorem State.answering_cursor (a : Answer) : (s.answering a).cursor = s.cursor := rfl
@[simp] theorem State.answering_wdElapsed (a : Answer) : (s.answering a).wdElapsed = s.wdElapsed := rfl
@[simp] theorem State.answering_rxbuf (a : Answer) : (s.answering a).rxbuf = s.rxbuf := rfl
@[simp] theorem State.answering_err (a : Answer) : (s.answering a).err = s.err := rfl
@[simp] theorem State.answering_blkKind (a : Answer) : (s.answering a).blkKind = s.blkKind := rfl
@[simp] theorem State.answering_blkLen (a : Answer) : (s.answering a).blkLen = s.blkLen := rfl
@[simp] theorem State.answering_cksAcc (a : Answer) : (s.answering a).cksAcc = s.cksAcc := rfl
@[simp] theorem State.answering_byteIdx (a : Answer) : (s.answering a).byteIdx = s.byteIdx := rfl
@[simp] theorem State.answering_drain (a : Answer) : (s.answering a).drain = s.drain := rfl
@[simp] theorem State.answering_img (a : Answer) : (s.answering a).img = s.img := rfl
@[simp] theorem State.answering_linkOpen (a : Answer) : (s.answering a).linkOpen = s.linkOpen := rfl
@[simp] theorem State.answering_linkDevice (a : Answer) : (s.answering a).linkDevice = s.linkDevice := rfl
@[simp] theorem State.answering_linkBaud (a : Answer) : (s.answering a).linkBaud = s.linkBaud := rfl
@[simp] theorem State.answering_rxq (a : Answer) : (s.answering a).rxq = s.rxq := rfl
@[simp] theorem State.answering_txlog (a : Answer) : (s.answering a).txlog = s.txlog := rfl
@[simp] theorem State.answering_txPart (a : Answer) : (s.answering a).txPart = s.txPart := rfl
@[simp] theorem State.answering_wire (a : Answer) : (s.answering a).wire = s.wire := rfl
@[simp] theorem State.answering_diag (a : Answer) : (s.answering a).diag = s.diag := rfl
@[simp] theorem State.answering_framer (a : Answer) : (s.answering a).framer = s.framer := rfl
@[simp] theorem State.answering_answer (a : Answer) : (s.answering a).answer = a := rfl
@[simp] theorem State.answering_freeCtr (a : Answer) : (s.answering a).freeCtr = s.freeCtr := rfl
@[simp] theorem State.answering_schedule (a : Answer) : (s.answering a).schedule = s.schedule := rfl

/-! ### `State.pushRxbuf` -/

@[simp] theorem State.pushRxbuf_state (bs : List Byte) : (s.pushRxbuf bs).state = s.state := rfl
@[simp] theorem State.pushRxbuf_startAddr (bs : List Byte) : (s.pushRxbuf bs).startAddr = s.startAddr := rfl
@[simp] theorem State.pushRxbuf_imgLen (bs : List Byte) : (s.pushRxbuf bs).imgLen = s.imgLen := rfl
@[simp] theorem State.pushRxbuf_timeoutMs (bs : List Byte) : (s.pushRxbuf bs).timeoutMs = s.timeoutMs := rfl
@[simp] theorem State.pushRxbuf_cursor (bs : List Byte) : (s.pushRxbuf bs).cursor = s.cursor := rfl
@[simp] theorem State.pushRxbuf_wdElapsed (bs : List Byte) : (s.pushRxbuf bs).wdElapsed = s.wdElapsed := rfl
@[simp] theorem State.pushRxbuf_rxbuf (bs : List Byte) : (s.pushRxbuf bs).rxbuf = s.rxbuf ++ bs := rfl
@[simp] theorem State.pushRxbuf_err (bs : List Byte) : (s.pushRxbuf bs).err = s.err := rfl
@[simp] theorem State.pushRxbuf_blkKind (bs : List Byte) : (s.pushRxbuf bs).blkKind = s.blkKind := rfl
@[simp] theorem State.pushRxbuf_blkLen (bs : List Byte) : (s.pushRxbuf bs).blkLen = s.blkLen := rfl
@[simp] theorem State.pushRxbuf_cksAcc (bs : List Byte) : (s.pushRxbuf bs).cksAcc = s.cksAcc := rfl
@[simp] theorem State.pushRxbuf_byteIdx (bs : List Byte) : (s.pushRxbuf bs).byteIdx = s.byteIdx := rfl
@[simp] theorem State.pushRxbuf_drain (bs : List Byte) : (s.pushRxbuf bs).drain = s.drain := rfl
@[simp] theorem State.pushRxbuf_img (bs : List Byte) : (s.pushRxbuf bs).img = s.img := rfl
@[simp] theorem State.pushRxbuf_linkOpen (bs : List Byte) : (s.pushRxbuf bs).linkOpen = s.linkOpen := rfl
@[simp] theorem State.pushRxbuf_linkDevice (bs : List Byte) : (s.pushRxbuf bs).linkDevice = s.linkDevice := rfl
@[simp] theorem State.pushRxbuf_linkBaud (bs : List Byte) : (s.pushRxbuf bs).linkBaud = s.linkBaud := rfl
@[simp] theorem State.pushRxbuf_rxq (bs : List Byte) : (s.pushRxbuf bs).rxq = s.rxq := rfl
@[simp] theorem State.pushRxbuf_txlog (bs : List Byte) : (s.pushRxbuf bs).txlog = s.txlog := rfl
@[simp] theorem State.pushRxbuf_txPart (bs : List Byte) : (s.pushRxbuf bs).txPart = s.txPart := rfl
@[simp] theorem State.pushRxbuf_wire (bs : List Byte) : (s.pushRxbuf bs).wire = s.wire := rfl
@[simp] theorem State.pushRxbuf_diag (bs : List Byte) : (s.pushRxbuf bs).diag = s.diag := rfl
@[simp] theorem State.pushRxbuf_framer (bs : List Byte) : (s.pushRxbuf bs).framer = s.framer := rfl
@[simp] theorem State.pushRxbuf_answer (bs : List Byte) : (s.pushRxbuf bs).answer = s.answer := rfl
@[simp] theorem State.pushRxbuf_freeCtr (bs : List Byte) : (s.pushRxbuf bs).freeCtr = s.freeCtr := rfl
@[simp] theorem State.pushRxbuf_schedule (bs : List Byte) : (s.pushRxbuf bs).schedule = s.schedule := rfl

/-! ### `State.advance` -/

@[simp] theorem State.advance_state (n : Nat) : (s.advance n).state = s.state := rfl
@[simp] theorem State.advance_startAddr (n : Nat) : (s.advance n).startAddr = s.startAddr := rfl
@[simp] theorem State.advance_imgLen (n : Nat) : (s.advance n).imgLen = s.imgLen := rfl
@[simp] theorem State.advance_timeoutMs (n : Nat) : (s.advance n).timeoutMs = s.timeoutMs := rfl
@[simp] theorem State.advance_cursor (n : Nat) : (s.advance n).cursor = s.cursor + n := rfl
@[simp] theorem State.advance_wdElapsed (n : Nat) : (s.advance n).wdElapsed = s.wdElapsed := rfl
@[simp] theorem State.advance_rxbuf (n : Nat) : (s.advance n).rxbuf = s.rxbuf := rfl
@[simp] theorem State.advance_err (n : Nat) : (s.advance n).err = s.err := rfl
@[simp] theorem State.advance_blkKind (n : Nat) : (s.advance n).blkKind = s.blkKind := rfl
@[simp] theorem State.advance_blkLen (n : Nat) : (s.advance n).blkLen = s.blkLen := rfl
@[simp] theorem State.advance_cksAcc (n : Nat) : (s.advance n).cksAcc = s.cksAcc := rfl
@[simp] theorem State.advance_byteIdx (n : Nat) : (s.advance n).byteIdx = s.byteIdx := rfl
@[simp] theorem State.advance_drain (n : Nat) : (s.advance n).drain = s.drain := rfl
@[simp] theorem State.advance_img (n : Nat) : (s.advance n).img = s.img := rfl
@[simp] theorem State.advance_linkOpen (n : Nat) : (s.advance n).linkOpen = s.linkOpen := rfl
@[simp] theorem State.advance_linkDevice (n : Nat) : (s.advance n).linkDevice = s.linkDevice := rfl
@[simp] theorem State.advance_linkBaud (n : Nat) : (s.advance n).linkBaud = s.linkBaud := rfl
@[simp] theorem State.advance_rxq (n : Nat) : (s.advance n).rxq = s.rxq := rfl
@[simp] theorem State.advance_txlog (n : Nat) : (s.advance n).txlog = s.txlog := rfl
@[simp] theorem State.advance_txPart (n : Nat) : (s.advance n).txPart = s.txPart := rfl
@[simp] theorem State.advance_wire (n : Nat) : (s.advance n).wire = s.wire := rfl
@[simp] theorem State.advance_diag (n : Nat) : (s.advance n).diag = s.diag := rfl
@[simp] theorem State.advance_framer (n : Nat) : (s.advance n).framer = s.framer := rfl
@[simp] theorem State.advance_answer (n : Nat) : (s.advance n).answer = s.answer := rfl
@[simp] theorem State.advance_freeCtr (n : Nat) : (s.advance n).freeCtr = s.freeCtr := rfl
@[simp] theorem State.advance_schedule (n : Nat) : (s.advance n).schedule = s.schedule := rfl

/-! ### `State.enterAwait` -/

@[simp] theorem State.enterAwait_state (w : Wait) : (s.enterAwait w).state = w.session := rfl
@[simp] theorem State.enterAwait_startAddr (w : Wait) : (s.enterAwait w).startAddr = s.startAddr := rfl
@[simp] theorem State.enterAwait_imgLen (w : Wait) : (s.enterAwait w).imgLen = s.imgLen := rfl
@[simp] theorem State.enterAwait_timeoutMs (w : Wait) : (s.enterAwait w).timeoutMs = s.timeoutMs := rfl
@[simp] theorem State.enterAwait_cursor (w : Wait) : (s.enterAwait w).cursor = s.cursor := rfl
@[simp] theorem State.enterAwait_wdElapsed (w : Wait) : (s.enterAwait w).wdElapsed = 0 := rfl
@[simp] theorem State.enterAwait_rxbuf (w : Wait) : (s.enterAwait w).rxbuf = [] := rfl
@[simp] theorem State.enterAwait_err (w : Wait) : (s.enterAwait w).err = s.err := rfl
@[simp] theorem State.enterAwait_blkKind (w : Wait) : (s.enterAwait w).blkKind = s.blkKind := rfl
@[simp] theorem State.enterAwait_blkLen (w : Wait) : (s.enterAwait w).blkLen = s.blkLen := rfl
@[simp] theorem State.enterAwait_cksAcc (w : Wait) : (s.enterAwait w).cksAcc = s.cksAcc := rfl
@[simp] theorem State.enterAwait_byteIdx (w : Wait) : (s.enterAwait w).byteIdx = s.byteIdx := rfl
@[simp] theorem State.enterAwait_drain (w : Wait) : (s.enterAwait w).drain = s.drain := rfl
@[simp] theorem State.enterAwait_img (w : Wait) : (s.enterAwait w).img = s.img := rfl
@[simp] theorem State.enterAwait_linkOpen (w : Wait) : (s.enterAwait w).linkOpen = s.linkOpen := rfl
@[simp] theorem State.enterAwait_linkDevice (w : Wait) : (s.enterAwait w).linkDevice = s.linkDevice := rfl
@[simp] theorem State.enterAwait_linkBaud (w : Wait) : (s.enterAwait w).linkBaud = s.linkBaud := rfl
@[simp] theorem State.enterAwait_rxq (w : Wait) : (s.enterAwait w).rxq = s.rxq := rfl
@[simp] theorem State.enterAwait_txlog (w : Wait) : (s.enterAwait w).txlog = s.txlog := rfl
@[simp] theorem State.enterAwait_txPart (w : Wait) : (s.enterAwait w).txPart = s.txPart := rfl
@[simp] theorem State.enterAwait_wire (w : Wait) : (s.enterAwait w).wire = s.wire := rfl
@[simp] theorem State.enterAwait_diag (w : Wait) : (s.enterAwait w).diag = s.diag := rfl
@[simp] theorem State.enterAwait_framer (w : Wait) : (s.enterAwait w).framer = s.framer := rfl
@[simp] theorem State.enterAwait_answer (w : Wait) : (s.enterAwait w).answer = s.answer := rfl
@[simp] theorem State.enterAwait_freeCtr (w : Wait) : (s.enterAwait w).freeCtr = s.freeCtr := rfl
@[simp] theorem State.enterAwait_schedule (w : Wait) : (s.enterAwait w).schedule = s.schedule := rfl

/-! ### `State.acknowledge` -/

@[simp] theorem State.acknowledge_state (w : Wait) : (s.acknowledge w).state = w.next := rfl
@[simp] theorem State.acknowledge_startAddr (w : Wait) : (s.acknowledge w).startAddr = s.startAddr := rfl
@[simp] theorem State.acknowledge_imgLen (w : Wait) : (s.acknowledge w).imgLen = s.imgLen := rfl
@[simp] theorem State.acknowledge_timeoutMs (w : Wait) : (s.acknowledge w).timeoutMs = s.timeoutMs := rfl
@[simp] theorem State.acknowledge_cursor (w : Wait) : (s.acknowledge w).cursor = s.cursor := rfl
@[simp] theorem State.acknowledge_wdElapsed (w : Wait) : (s.acknowledge w).wdElapsed = s.wdElapsed := rfl
@[simp] theorem State.acknowledge_rxbuf (w : Wait) : (s.acknowledge w).rxbuf = [] := rfl
@[simp] theorem State.acknowledge_err (w : Wait) : (s.acknowledge w).err = s.err := rfl
@[simp] theorem State.acknowledge_blkKind (w : Wait) : (s.acknowledge w).blkKind = s.blkKind := rfl
@[simp] theorem State.acknowledge_blkLen (w : Wait) : (s.acknowledge w).blkLen = s.blkLen := rfl
@[simp] theorem State.acknowledge_cksAcc (w : Wait) : (s.acknowledge w).cksAcc = s.cksAcc := rfl
@[simp] theorem State.acknowledge_byteIdx (w : Wait) : (s.acknowledge w).byteIdx = s.byteIdx := rfl
@[simp] theorem State.acknowledge_drain (w : Wait) : (s.acknowledge w).drain = s.drain := rfl
@[simp] theorem State.acknowledge_img (w : Wait) : (s.acknowledge w).img = s.img := rfl
@[simp] theorem State.acknowledge_linkOpen (w : Wait) : (s.acknowledge w).linkOpen = s.linkOpen := rfl
@[simp] theorem State.acknowledge_linkDevice (w : Wait) : (s.acknowledge w).linkDevice = s.linkDevice := rfl
@[simp] theorem State.acknowledge_linkBaud (w : Wait) : (s.acknowledge w).linkBaud = s.linkBaud := rfl
@[simp] theorem State.acknowledge_rxq (w : Wait) : (s.acknowledge w).rxq = s.rxq := rfl
@[simp] theorem State.acknowledge_txlog (w : Wait) : (s.acknowledge w).txlog = s.txlog := rfl
@[simp] theorem State.acknowledge_txPart (w : Wait) : (s.acknowledge w).txPart = s.txPart := rfl
@[simp] theorem State.acknowledge_wire (w : Wait) : (s.acknowledge w).wire = s.wire := rfl
@[simp] theorem State.acknowledge_diag (w : Wait) : (s.acknowledge w).diag = s.diag ++ [s.rxbuf] := rfl
@[simp] theorem State.acknowledge_framer (w : Wait) : (s.acknowledge w).framer = s.framer := rfl
@[simp] theorem State.acknowledge_answer (w : Wait) : (s.acknowledge w).answer = s.answer := rfl
@[simp] theorem State.acknowledge_freeCtr (w : Wait) : (s.acknowledge w).freeCtr = s.freeCtr := rfl
@[simp] theorem State.acknowledge_schedule (w : Wait) : (s.acknowledge w).schedule = s.schedule := rfl

/-! ### `State.latchStart` -/

@[simp] theorem State.latchStart_state (a : Word16) (n : Nat) (v : Word16) : (s.latchStart a n v).state = .sendingStart := rfl
@[simp] theorem State.latchStart_startAddr (a : Word16) (n : Nat) (v : Word16) : (s.latchStart a n v).startAddr = a := rfl
@[simp] theorem State.latchStart_imgLen (a : Word16) (n : Nat) (v : Word16) : (s.latchStart a n v).imgLen = n := rfl
@[simp] theorem State.latchStart_timeoutMs (a : Word16) (n : Nat) (v : Word16) : (s.latchStart a n v).timeoutMs = v := rfl
@[simp] theorem State.latchStart_cursor (a : Word16) (n : Nat) (v : Word16) : (s.latchStart a n v).cursor = 0 := rfl
@[simp] theorem State.latchStart_wdElapsed (a : Word16) (n : Nat) (v : Word16) : (s.latchStart a n v).wdElapsed = s.wdElapsed := rfl
@[simp] theorem State.latchStart_rxbuf (a : Word16) (n : Nat) (v : Word16) : (s.latchStart a n v).rxbuf = s.rxbuf := rfl
@[simp] theorem State.latchStart_err (a : Word16) (n : Nat) (v : Word16) : (s.latchStart a n v).err = s.err := rfl
@[simp] theorem State.latchStart_blkKind (a : Word16) (n : Nat) (v : Word16) : (s.latchStart a n v).blkKind = s.blkKind := rfl
@[simp] theorem State.latchStart_blkLen (a : Word16) (n : Nat) (v : Word16) : (s.latchStart a n v).blkLen = s.blkLen := rfl
@[simp] theorem State.latchStart_cksAcc (a : Word16) (n : Nat) (v : Word16) : (s.latchStart a n v).cksAcc = s.cksAcc := rfl
@[simp] theorem State.latchStart_byteIdx (a : Word16) (n : Nat) (v : Word16) : (s.latchStart a n v).byteIdx = s.byteIdx := rfl
@[simp] theorem State.latchStart_drain (a : Word16) (n : Nat) (v : Word16) : (s.latchStart a n v).drain = s.drain := rfl
@[simp] theorem State.latchStart_img (a : Word16) (n : Nat) (v : Word16) : (s.latchStart a n v).img = s.img := rfl
@[simp] theorem State.latchStart_linkOpen (a : Word16) (n : Nat) (v : Word16) : (s.latchStart a n v).linkOpen = s.linkOpen := rfl
@[simp] theorem State.latchStart_linkDevice (a : Word16) (n : Nat) (v : Word16) : (s.latchStart a n v).linkDevice = s.linkDevice := rfl
@[simp] theorem State.latchStart_linkBaud (a : Word16) (n : Nat) (v : Word16) : (s.latchStart a n v).linkBaud = s.linkBaud := rfl
@[simp] theorem State.latchStart_rxq (a : Word16) (n : Nat) (v : Word16) : (s.latchStart a n v).rxq = s.rxq := rfl
@[simp] theorem State.latchStart_txlog (a : Word16) (n : Nat) (v : Word16) : (s.latchStart a n v).txlog = s.txlog := rfl
@[simp] theorem State.latchStart_txPart (a : Word16) (n : Nat) (v : Word16) : (s.latchStart a n v).txPart = s.txPart := rfl
@[simp] theorem State.latchStart_wire (a : Word16) (n : Nat) (v : Word16) : (s.latchStart a n v).wire = s.wire := rfl
@[simp] theorem State.latchStart_diag (a : Word16) (n : Nat) (v : Word16) : (s.latchStart a n v).diag = s.diag := rfl
@[simp] theorem State.latchStart_framer (a : Word16) (n : Nat) (v : Word16) : (s.latchStart a n v).framer = s.framer := rfl
@[simp] theorem State.latchStart_answer (a : Word16) (n : Nat) (v : Word16) : (s.latchStart a n v).answer = s.answer := rfl
@[simp] theorem State.latchStart_freeCtr (a : Word16) (n : Nat) (v : Word16) : (s.latchStart a n v).freeCtr = s.freeCtr := rfl
@[simp] theorem State.latchStart_schedule (a : Word16) (n : Nat) (v : Word16) : (s.latchStart a n v).schedule = s.schedule := rfl

/-! ### `State.enterFailed` -/

@[simp] theorem State.enterFailed_state : (s.enterFailed).state = .failed := rfl
@[simp] theorem State.enterFailed_startAddr : (s.enterFailed).startAddr = s.startAddr := rfl
@[simp] theorem State.enterFailed_imgLen : (s.enterFailed).imgLen = s.imgLen := rfl
@[simp] theorem State.enterFailed_timeoutMs : (s.enterFailed).timeoutMs = s.timeoutMs := rfl
@[simp] theorem State.enterFailed_cursor : (s.enterFailed).cursor = s.cursor := rfl
@[simp] theorem State.enterFailed_wdElapsed : (s.enterFailed).wdElapsed = s.wdElapsed := rfl
@[simp] theorem State.enterFailed_rxbuf : (s.enterFailed).rxbuf = [] := rfl
@[simp] theorem State.enterFailed_err : (s.enterFailed).err = .noAcknowledgment := rfl
@[simp] theorem State.enterFailed_blkKind : (s.enterFailed).blkKind = s.blkKind := rfl
@[simp] theorem State.enterFailed_blkLen : (s.enterFailed).blkLen = s.blkLen := rfl
@[simp] theorem State.enterFailed_cksAcc : (s.enterFailed).cksAcc = s.cksAcc := rfl
@[simp] theorem State.enterFailed_byteIdx : (s.enterFailed).byteIdx = s.byteIdx := rfl
@[simp] theorem State.enterFailed_drain : (s.enterFailed).drain = s.drain := rfl
@[simp] theorem State.enterFailed_img : (s.enterFailed).img = s.img := rfl
@[simp] theorem State.enterFailed_linkOpen : (s.enterFailed).linkOpen = false := rfl
@[simp] theorem State.enterFailed_linkDevice : (s.enterFailed).linkDevice = s.linkDevice := rfl
@[simp] theorem State.enterFailed_linkBaud : (s.enterFailed).linkBaud = s.linkBaud := rfl
@[simp] theorem State.enterFailed_rxq : (s.enterFailed).rxq = s.rxq := rfl
@[simp] theorem State.enterFailed_txlog : (s.enterFailed).txlog = s.txlog := rfl
@[simp] theorem State.enterFailed_txPart : (s.enterFailed).txPart = s.txPart := rfl
@[simp] theorem State.enterFailed_wire : (s.enterFailed).wire = s.wire := rfl
@[simp] theorem State.enterFailed_diag : (s.enterFailed).diag = s.diag := rfl
@[simp] theorem State.enterFailed_framer : (s.enterFailed).framer = s.framer := rfl
@[simp] theorem State.enterFailed_answer : (s.enterFailed).answer = s.answer := rfl
@[simp] theorem State.enterFailed_freeCtr : (s.enterFailed).freeCtr = s.freeCtr := rfl
@[simp] theorem State.enterFailed_schedule : (s.enterFailed).schedule = s.schedule := rfl

/-! ### `State.freeWork` -/

@[simp] theorem State.freeWork_state : (s.freeWork).state = s.state := rfl
@[simp] theorem State.freeWork_startAddr : (s.freeWork).startAddr = s.startAddr := rfl
@[simp] theorem State.freeWork_imgLen : (s.freeWork).imgLen = s.imgLen := rfl
@[simp] theorem State.freeWork_timeoutMs : (s.freeWork).timeoutMs = s.timeoutMs := rfl
@[simp] theorem State.freeWork_cursor : (s.freeWork).cursor = s.cursor := rfl
@[simp] theorem State.freeWork_wdElapsed : (s.freeWork).wdElapsed = s.wdElapsed := rfl
@[simp] theorem State.freeWork_rxbuf : (s.freeWork).rxbuf = s.rxbuf := rfl
@[simp] theorem State.freeWork_err : (s.freeWork).err = s.err := rfl
@[simp] theorem State.freeWork_blkKind : (s.freeWork).blkKind = Config.freeBlkKind s.freeCtr := rfl
@[simp] theorem State.freeWork_blkLen : (s.freeWork).blkLen = Config.freeBlkLen s.freeCtr := rfl
@[simp] theorem State.freeWork_cksAcc : (s.freeWork).cksAcc = Config.freeCksAcc s.freeCtr := rfl
@[simp] theorem State.freeWork_byteIdx : (s.freeWork).byteIdx = Config.freeByteIdx s.freeCtr := rfl
@[simp] theorem State.freeWork_drain : (s.freeWork).drain = s.drain := rfl
@[simp] theorem State.freeWork_img : (s.freeWork).img = s.img := rfl
@[simp] theorem State.freeWork_linkOpen : (s.freeWork).linkOpen = s.linkOpen := rfl
@[simp] theorem State.freeWork_linkDevice : (s.freeWork).linkDevice = s.linkDevice := rfl
@[simp] theorem State.freeWork_linkBaud : (s.freeWork).linkBaud = s.linkBaud := rfl
@[simp] theorem State.freeWork_rxq : (s.freeWork).rxq = s.rxq := rfl
@[simp] theorem State.freeWork_txlog : (s.freeWork).txlog = s.txlog := rfl
@[simp] theorem State.freeWork_txPart : (s.freeWork).txPart = s.txPart := rfl
@[simp] theorem State.freeWork_wire : (s.freeWork).wire = s.wire := rfl
@[simp] theorem State.freeWork_diag : (s.freeWork).diag = s.diag := rfl
@[simp] theorem State.freeWork_framer : (s.freeWork).framer = s.framer := rfl
@[simp] theorem State.freeWork_answer : (s.freeWork).answer = s.answer := rfl
@[simp] theorem State.freeWork_freeCtr : (s.freeWork).freeCtr = s.freeCtr + 1 := rfl
@[simp] theorem State.freeWork_schedule : (s.freeWork).schedule = s.schedule := rfl

/-! ### `State.resetRegs` -/

@[simp] theorem State.resetRegs_state : (s.resetRegs).state = .idle := rfl
@[simp] theorem State.resetRegs_startAddr : (s.resetRegs).startAddr = Config.freeStartAddr s.freeCtr := rfl
@[simp] theorem State.resetRegs_imgLen : (s.resetRegs).imgLen = Config.freeImgLen s.freeCtr := rfl
@[simp] theorem State.resetRegs_timeoutMs : (s.resetRegs).timeoutMs = Config.freeTimeoutMs s.freeCtr := rfl
@[simp] theorem State.resetRegs_cursor : (s.resetRegs).cursor = 0 := rfl
@[simp] theorem State.resetRegs_wdElapsed : (s.resetRegs).wdElapsed = 0 := rfl
@[simp] theorem State.resetRegs_rxbuf : (s.resetRegs).rxbuf = [] := rfl
@[simp] theorem State.resetRegs_err : (s.resetRegs).err = .none := rfl
@[simp] theorem State.resetRegs_blkKind : (s.resetRegs).blkKind = Config.freeBlkKind s.freeCtr := rfl
@[simp] theorem State.resetRegs_blkLen : (s.resetRegs).blkLen = Config.freeBlkLen s.freeCtr := rfl
@[simp] theorem State.resetRegs_cksAcc : (s.resetRegs).cksAcc = Config.freeCksAcc s.freeCtr := rfl
@[simp] theorem State.resetRegs_byteIdx : (s.resetRegs).byteIdx = Config.freeByteIdx s.freeCtr := rfl
@[simp] theorem State.resetRegs_drain : (s.resetRegs).drain = none := rfl
@[simp] theorem State.resetRegs_img : (s.resetRegs).img = s.img := rfl
@[simp] theorem State.resetRegs_linkOpen : (s.resetRegs).linkOpen = s.linkOpen := rfl
@[simp] theorem State.resetRegs_linkDevice : (s.resetRegs).linkDevice = s.linkDevice := rfl
@[simp] theorem State.resetRegs_linkBaud : (s.resetRegs).linkBaud = s.linkBaud := rfl
@[simp] theorem State.resetRegs_rxq : (s.resetRegs).rxq = s.rxq := rfl
@[simp] theorem State.resetRegs_txlog : (s.resetRegs).txlog = s.txlog := rfl
@[simp] theorem State.resetRegs_txPart : (s.resetRegs).txPart = [] := rfl
@[simp] theorem State.resetRegs_wire : (s.resetRegs).wire = s.wire := rfl
@[simp] theorem State.resetRegs_diag : (s.resetRegs).diag = s.diag := rfl
@[simp] theorem State.resetRegs_framer : (s.resetRegs).framer = s.framer := rfl
@[simp] theorem State.resetRegs_answer : (s.resetRegs).answer = s.answer := rfl
@[simp] theorem State.resetRegs_freeCtr : (s.resetRegs).freeCtr = s.freeCtr + 1 := rfl
@[simp] theorem State.resetRegs_schedule : (s.resetRegs).schedule = s.schedule := rfl

/-! ### `State.begin` -/

@[simp] theorem State.begin_state (rest : Schedule) : (s.begin rest).state = s.state := rfl
@[simp] theorem State.begin_startAddr (rest : Schedule) : (s.begin rest).startAddr = s.startAddr := rfl
@[simp] theorem State.begin_imgLen (rest : Schedule) : (s.begin rest).imgLen = s.imgLen := rfl
@[simp] theorem State.begin_timeoutMs (rest : Schedule) : (s.begin rest).timeoutMs = s.timeoutMs := rfl
@[simp] theorem State.begin_cursor (rest : Schedule) : (s.begin rest).cursor = s.cursor := rfl
@[simp] theorem State.begin_wdElapsed (rest : Schedule) : (s.begin rest).wdElapsed = s.wdElapsed := rfl
@[simp] theorem State.begin_rxbuf (rest : Schedule) : (s.begin rest).rxbuf = s.rxbuf := rfl
@[simp] theorem State.begin_err (rest : Schedule) : (s.begin rest).err = s.err := rfl
@[simp] theorem State.begin_blkKind (rest : Schedule) : (s.begin rest).blkKind = s.blkKind := rfl
@[simp] theorem State.begin_blkLen (rest : Schedule) : (s.begin rest).blkLen = s.blkLen := rfl
@[simp] theorem State.begin_cksAcc (rest : Schedule) : (s.begin rest).cksAcc = s.cksAcc := rfl
@[simp] theorem State.begin_byteIdx (rest : Schedule) : (s.begin rest).byteIdx = s.byteIdx := rfl
@[simp] theorem State.begin_drain (rest : Schedule) : (s.begin rest).drain = s.drain := rfl
@[simp] theorem State.begin_img (rest : Schedule) : (s.begin rest).img = s.img := rfl
@[simp] theorem State.begin_linkOpen (rest : Schedule) : (s.begin rest).linkOpen = s.linkOpen := rfl
@[simp] theorem State.begin_linkDevice (rest : Schedule) : (s.begin rest).linkDevice = s.linkDevice := rfl
@[simp] theorem State.begin_linkBaud (rest : Schedule) : (s.begin rest).linkBaud = s.linkBaud := rfl
@[simp] theorem State.begin_rxq (rest : Schedule) : (s.begin rest).rxq = s.rxq := rfl
@[simp] theorem State.begin_txlog (rest : Schedule) : (s.begin rest).txlog = s.txlog := rfl
@[simp] theorem State.begin_txPart (rest : Schedule) : (s.begin rest).txPart = s.txPart := rfl
@[simp] theorem State.begin_wire (rest : Schedule) : (s.begin rest).wire = s.wire := rfl
@[simp] theorem State.begin_diag (rest : Schedule) : (s.begin rest).diag = s.diag := rfl
@[simp] theorem State.begin_framer (rest : Schedule) : (s.begin rest).framer = s.framer := rfl
@[simp] theorem State.begin_answer (rest : Schedule) : (s.begin rest).answer = .none := rfl
@[simp] theorem State.begin_freeCtr (rest : Schedule) : (s.begin rest).freeCtr = s.freeCtr := rfl
@[simp] theorem State.begin_schedule (rest : Schedule) : (s.begin rest).schedule = rest := rfl

/-! ### `State.transferByte` -/

@[simp] theorem State.transferByte_state (b : Byte) : (s.transferByte b).state = s.state := rfl
@[simp] theorem State.transferByte_startAddr (b : Byte) : (s.transferByte b).startAddr = s.startAddr := rfl
@[simp] theorem State.transferByte_imgLen (b : Byte) : (s.transferByte b).imgLen = s.imgLen := rfl
@[simp] theorem State.transferByte_timeoutMs (b : Byte) : (s.transferByte b).timeoutMs = s.timeoutMs := rfl
@[simp] theorem State.transferByte_cursor (b : Byte) : (s.transferByte b).cursor = s.cursor := rfl
@[simp] theorem State.transferByte_wdElapsed (b : Byte) : (s.transferByte b).wdElapsed = s.wdElapsed := rfl
@[simp] theorem State.transferByte_rxbuf (b : Byte) : (s.transferByte b).rxbuf = s.rxbuf := rfl
@[simp] theorem State.transferByte_err (b : Byte) : (s.transferByte b).err = s.err := rfl
@[simp] theorem State.transferByte_blkKind (b : Byte) : (s.transferByte b).blkKind = s.blkKind := rfl
@[simp] theorem State.transferByte_blkLen (b : Byte) : (s.transferByte b).blkLen = s.blkLen := rfl
@[simp] theorem State.transferByte_cksAcc (b : Byte) : (s.transferByte b).cksAcc = s.cksAfter b := rfl
@[simp] theorem State.transferByte_byteIdx (b : Byte) : (s.transferByte b).byteIdx = s.byteIdx + 1 := rfl
@[simp] theorem State.transferByte_drain (b : Byte) : (s.transferByte b).drain = s.drain := rfl
@[simp] theorem State.transferByte_img (b : Byte) : (s.transferByte b).img = s.img := rfl
@[simp] theorem State.transferByte_linkOpen (b : Byte) : (s.transferByte b).linkOpen = s.linkOpen := rfl
@[simp] theorem State.transferByte_linkDevice (b : Byte) : (s.transferByte b).linkDevice = s.linkDevice := rfl
@[simp] theorem State.transferByte_linkBaud (b : Byte) : (s.transferByte b).linkBaud = s.linkBaud := rfl
@[simp] theorem State.transferByte_rxq (b : Byte) : (s.transferByte b).rxq = s.rxq := rfl
@[simp] theorem State.transferByte_txlog (b : Byte) : (s.transferByte b).txlog = s.txlog := rfl
@[simp] theorem State.transferByte_txPart (b : Byte) : (s.transferByte b).txPart = s.txPart ++ [b] := rfl
@[simp] theorem State.transferByte_wire (b : Byte) : (s.transferByte b).wire = s.wire ++ [b] := rfl
@[simp] theorem State.transferByte_diag (b : Byte) : (s.transferByte b).diag = s.diag := rfl
@[simp] theorem State.transferByte_framer (b : Byte) : (s.transferByte b).framer = s.framer := rfl
@[simp] theorem State.transferByte_answer (b : Byte) : (s.transferByte b).answer = s.answer := rfl
@[simp] theorem State.transferByte_freeCtr (b : Byte) : (s.transferByte b).freeCtr = s.freeCtr := rfl
@[simp] theorem State.transferByte_schedule (b : Byte) : (s.transferByte b).schedule = s.schedule := rfl

/-! ### `State.clockFramer` -/

@[simp] theorem State.clockFramer_state (c : FramerIn) : (s.clockFramer c).state = s.state := rfl
@[simp] theorem State.clockFramer_startAddr (c : FramerIn) : (s.clockFramer c).startAddr = s.startAddr := rfl
@[simp] theorem State.clockFramer_imgLen (c : FramerIn) : (s.clockFramer c).imgLen = s.imgLen := rfl
@[simp] theorem State.clockFramer_timeoutMs (c : FramerIn) : (s.clockFramer c).timeoutMs = s.timeoutMs := rfl
@[simp] theorem State.clockFramer_cursor (c : FramerIn) : (s.clockFramer c).cursor = s.cursor := rfl
@[simp] theorem State.clockFramer_wdElapsed (c : FramerIn) : (s.clockFramer c).wdElapsed = s.wdElapsed := rfl
@[simp] theorem State.clockFramer_rxbuf (c : FramerIn) : (s.clockFramer c).rxbuf = s.rxbuf := rfl
@[simp] theorem State.clockFramer_err (c : FramerIn) : (s.clockFramer c).err = s.err := rfl
@[simp] theorem State.clockFramer_blkKind (c : FramerIn) : (s.clockFramer c).blkKind = s.blkKind := rfl
@[simp] theorem State.clockFramer_blkLen (c : FramerIn) : (s.clockFramer c).blkLen = s.blkLen := rfl
@[simp] theorem State.clockFramer_cksAcc (c : FramerIn) : (s.clockFramer c).cksAcc = s.cksAcc := rfl
@[simp] theorem State.clockFramer_byteIdx (c : FramerIn) : (s.clockFramer c).byteIdx = s.byteIdx := rfl
@[simp] theorem State.clockFramer_drain (c : FramerIn) : (s.clockFramer c).drain = s.drain := rfl
@[simp] theorem State.clockFramer_img (c : FramerIn) : (s.clockFramer c).img = s.img := rfl
@[simp] theorem State.clockFramer_linkOpen (c : FramerIn) : (s.clockFramer c).linkOpen = s.linkOpen := rfl
@[simp] theorem State.clockFramer_linkDevice (c : FramerIn) : (s.clockFramer c).linkDevice = s.linkDevice := rfl
@[simp] theorem State.clockFramer_linkBaud (c : FramerIn) : (s.clockFramer c).linkBaud = s.linkBaud := rfl
@[simp] theorem State.clockFramer_rxq (c : FramerIn) : (s.clockFramer c).rxq = s.rxq := rfl
@[simp] theorem State.clockFramer_txlog (c : FramerIn) : (s.clockFramer c).txlog = s.txlog := rfl
@[simp] theorem State.clockFramer_txPart (c : FramerIn) : (s.clockFramer c).txPart = s.txPart := rfl
@[simp] theorem State.clockFramer_wire (c : FramerIn) : (s.clockFramer c).wire = s.wire := rfl
@[simp] theorem State.clockFramer_diag (c : FramerIn) : (s.clockFramer c).diag = s.diag := rfl
@[simp] theorem State.clockFramer_framer (c : FramerIn) : (s.clockFramer c).framer = s.framer.cycle c := rfl
@[simp] theorem State.clockFramer_answer (c : FramerIn) : (s.clockFramer c).answer = s.answer := rfl
@[simp] theorem State.clockFramer_freeCtr (c : FramerIn) : (s.clockFramer c).freeCtr = s.freeCtr := rfl
@[simp] theorem State.clockFramer_schedule (c : FramerIn) : (s.clockFramer c).schedule = s.schedule := rfl

/-! ### `State.tick` -/

@[simp] theorem State.tick_state : s.tick.state = s.state := by unfold State.tick; split <;> rfl
@[simp] theorem State.tick_startAddr : s.tick.startAddr = s.startAddr := by unfold State.tick; split <;> rfl
@[simp] theorem State.tick_imgLen : s.tick.imgLen = s.imgLen := by unfold State.tick; split <;> rfl
@[simp] theorem State.tick_timeoutMs : s.tick.timeoutMs = s.timeoutMs := by unfold State.tick; split <;> rfl
@[simp] theorem State.tick_cursor : s.tick.cursor = s.cursor := by unfold State.tick; split <;> rfl
@[simp] theorem State.tick_rxbuf : s.tick.rxbuf = s.rxbuf := by unfold State.tick; split <;> rfl
@[simp] theorem State.tick_err : s.tick.err = s.err := by unfold State.tick; split <;> rfl
@[simp] theorem State.tick_blkKind : s.tick.blkKind = s.blkKind := by unfold State.tick; split <;> rfl
@[simp] theorem State.tick_blkLen : s.tick.blkLen = s.blkLen := by unfold State.tick; split <;> rfl
@[simp] theorem State.tick_cksAcc : s.tick.cksAcc = s.cksAcc := by unfold State.tick; split <;> rfl
@[simp] theorem State.tick_byteIdx : s.tick.byteIdx = s.byteIdx := by unfold State.tick; split <;> rfl
@[simp] theorem State.tick_drain : s.tick.drain = s.drain := by unfold State.tick; split <;> rfl
@[simp] theorem State.tick_img : s.tick.img = s.img := by unfold State.tick; split <;> rfl
@[simp] theorem State.tick_linkOpen : s.tick.linkOpen = s.linkOpen := by unfold State.tick; split <;> rfl
@[simp] theorem State.tick_linkDevice : s.tick.linkDevice = s.linkDevice := by unfold State.tick; split <;> rfl
@[simp] theorem State.tick_linkBaud : s.tick.linkBaud = s.linkBaud := by unfold State.tick; split <;> rfl
@[simp] theorem State.tick_rxq : s.tick.rxq = s.rxq := by unfold State.tick; split <;> rfl
@[simp] theorem State.tick_txlog : s.tick.txlog = s.txlog := by unfold State.tick; split <;> rfl
@[simp] theorem State.tick_txPart : s.tick.txPart = s.txPart := by unfold State.tick; split <;> rfl
@[simp] theorem State.tick_wire : s.tick.wire = s.wire := by unfold State.tick; split <;> rfl
@[simp] theorem State.tick_diag : s.tick.diag = s.diag := by unfold State.tick; split <;> rfl
@[simp] theorem State.tick_framer : s.tick.framer = s.framer := by unfold State.tick; split <;> rfl
@[simp] theorem State.tick_answer : s.tick.answer = s.answer := by unfold State.tick; split <;> rfl
@[simp] theorem State.tick_freeCtr : s.tick.freeCtr = s.freeCtr := by unfold State.tick; split <;> rfl
@[simp] theorem State.tick_schedule : s.tick.schedule = s.schedule := by unfold State.tick; split <;> rfl

theorem State.tick_wdElapsed_awaiting (h : s.state.isAwaiting = true) :
    s.tick.wdElapsed = saturatingInc s.wdElapsed := by
  simp [State.tick, h]

theorem State.tick_of_not_awaiting (h : s.state.isAwaiting = false) : s.tick = s := by
  simp [State.tick, h]

/-! ### `State.loadBlk` -/

@[simp] theorem State.loadBlk_state : s.loadBlk.state = s.state := by unfold State.loadBlk; split <;> first | rfl | (split <;> rfl)
@[simp] theorem State.loadBlk_startAddr : s.loadBlk.startAddr = s.startAddr := by unfold State.loadBlk; split <;> first | rfl | (split <;> rfl)
@[simp] theorem State.loadBlk_imgLen : s.loadBlk.imgLen = s.imgLen := by unfold State.loadBlk; split <;> first | rfl | (split <;> rfl)
@[simp] theorem State.loadBlk_timeoutMs : s.loadBlk.timeoutMs = s.timeoutMs := by unfold State.loadBlk; split <;> first | rfl | (split <;> rfl)
@[simp] theorem State.loadBlk_cursor : s.loadBlk.cursor = s.cursor := by unfold State.loadBlk; split <;> first | rfl | (split <;> rfl)
@[simp] theorem State.loadBlk_wdElapsed : s.loadBlk.wdElapsed = s.wdElapsed := by unfold State.loadBlk; split <;> first | rfl | (split <;> rfl)
@[simp] theorem State.loadBlk_rxbuf : s.loadBlk.rxbuf = s.rxbuf := by unfold State.loadBlk; split <;> first | rfl | (split <;> rfl)
@[simp] theorem State.loadBlk_err : s.loadBlk.err = s.err := by unfold State.loadBlk; split <;> first | rfl | (split <;> rfl)
@[simp] theorem State.loadBlk_drain : s.loadBlk.drain = s.drain := by unfold State.loadBlk; split <;> first | rfl | (split <;> rfl)
@[simp] theorem State.loadBlk_img : s.loadBlk.img = s.img := by unfold State.loadBlk; split <;> first | rfl | (split <;> rfl)
@[simp] theorem State.loadBlk_linkOpen : s.loadBlk.linkOpen = s.linkOpen := by unfold State.loadBlk; split <;> first | rfl | (split <;> rfl)
@[simp] theorem State.loadBlk_linkDevice : s.loadBlk.linkDevice = s.linkDevice := by unfold State.loadBlk; split <;> first | rfl | (split <;> rfl)
@[simp] theorem State.loadBlk_linkBaud : s.loadBlk.linkBaud = s.linkBaud := by unfold State.loadBlk; split <;> first | rfl | (split <;> rfl)
@[simp] theorem State.loadBlk_rxq : s.loadBlk.rxq = s.rxq := by unfold State.loadBlk; split <;> first | rfl | (split <;> rfl)
@[simp] theorem State.loadBlk_txlog : s.loadBlk.txlog = s.txlog := by unfold State.loadBlk; split <;> first | rfl | (split <;> rfl)
@[simp] theorem State.loadBlk_txPart : s.loadBlk.txPart = s.txPart := by unfold State.loadBlk; split <;> first | rfl | (split <;> rfl)
@[simp] theorem State.loadBlk_wire : s.loadBlk.wire = s.wire := by unfold State.loadBlk; split <;> first | rfl | (split <;> rfl)
@[simp] theorem State.loadBlk_diag : s.loadBlk.diag = s.diag := by unfold State.loadBlk; split <;> first | rfl | (split <;> rfl)
@[simp] theorem State.loadBlk_framer : s.loadBlk.framer = s.framer := by unfold State.loadBlk; split <;> first | rfl | (split <;> rfl)
@[simp] theorem State.loadBlk_answer : s.loadBlk.answer = s.answer := by unfold State.loadBlk; split <;> first | rfl | (split <;> rfl)
@[simp] theorem State.loadBlk_freeCtr : s.loadBlk.freeCtr = s.freeCtr := by unfold State.loadBlk; split <;> first | rfl | (split <;> rfl)
@[simp] theorem State.loadBlk_schedule : s.loadBlk.schedule = s.schedule := by unfold State.loadBlk; split <;> first | rfl | (split <;> rfl)

end Sys2Proof.Machine
end

