-- ==== Sys2Proof/Laws/Ops.lean ====
section
/-! SUPPORT. What each shared operation can do, said once: the Link, the Image, the Framer inside a run, the poll step,
the sending steps, and the operation the core runs next. -/

namespace Sys2Proof.Machine

/-! ### Outcomes -/

@[simp] theorem Result.andThen_next (s : State) (f : State → Result) : Result.andThen (.next s) f = f s := rfl

@[simp] theorem Result.andThen_fault (x : Fault) (f : State → Result) : Result.andThen (.fault x) f = .fault x := rfl

@[simp] theorem Result.andThen_refused (x : Refusal) (f : State → Result) :
    Result.andThen (.refused x) f = .refused x := rfl

@[simp] theorem Result.ofExcept_ok (s : State) : Result.ofExcept (.ok s) = .next s := rfl

@[simp] theorem Result.ofExcept_error (r : Refusal) : Result.ofExcept (.error r) = .refused r := rfl

/-- Two outcomes in sequence answer a next state only through one. -/
theorem Result.andThen_inv {r : Result} {f : State → Result} {t : State} (h : Result.andThen r f = .next t) :
    ∃ s, r = .next s ∧ f s = .next t := by
  cases r with
  | next s => exact ⟨s, rfl, h⟩
  | fault x => cases h
  | refused x => cases h

/-- Steps one after another split at any point. -/
theorem eventsOf_append (as bs : List Event) (s : State) :
    eventsOf (as ++ bs) s = Result.andThen (eventsOf as s) (eventsOf bs) := by
  induction as generalizing s with
  | nil => rfl
  | cons a as ih =>
    simp only [List.cons_append, eventsOf]
    cases execEvent a s with
    | next t => exact ih t
    | fault x => rfl
    | refused x => rfl

/-- Cycles one after another split at any point. -/
theorem cyclesOf_append (as bs : List ClockIn) (s : State) :
    cyclesOf (as ++ bs) s = Result.andThen (cyclesOf as s) (cyclesOf bs) := by
  induction as generalizing s with
  | nil => rfl
  | cons a as ih =>
    simp only [List.cons_append, cyclesOf]
    cases clockCycle a s with
    | next t => exact ih t
    | fault x => rfl
    | refused x => rfl

/-! ### The Link -/

theorem linkWrite_open {s : State} (h : s.linkOpen = true) (bs : List Byte) :
    linkWrite bs s = .ok (bs.length, s.pushWrite bs) := by simp [linkWrite, h]

theorem linkWrite_closed {s : State} (h : s.linkOpen = false) (bs : List Byte) :
    linkWrite bs s = .error .linkClosed := by simp [linkWrite, h]

theorem linkAvail_open {s : State} (h : s.linkOpen = true) : linkAvail s = .ok s.rxq.length := by simp [linkAvail, h]

theorem linkAvail_closed {s : State} (h : s.linkOpen = false) : linkAvail s = .error .linkClosed := by
  simp [linkAvail, h]

theorem linkRead_open {s : State} {n : Nat} (h : s.linkOpen = true) (h1 : 1 ≤ n) (h2 : n ≤ s.rxq.length) :
    linkRead n s = .ok (s.rxq.take n, s.dropRx n) := by
  simp only [linkRead, h, if_true]
  rw [if_neg (by omega)]

theorem linkRead_closed {s : State} (h : s.linkOpen = false) (n : Nat) : linkRead n s = .error .linkClosed := by
  simp [linkRead, h]

theorem linkClose_open {s : State} (h : s.linkOpen = true) : linkClose s = .ok s.closeLink := by simp [linkClose, h]

theorem linkClose_closed {s : State} (h : s.linkOpen = false) : linkClose s = .error .linkClosed := by
  simp [linkClose, h]

theorem remoteEnqueue_open {s : State} (h : s.linkOpen = true) (b : Byte) : remoteEnqueue b s = .ok (s.pushRx b) := by
  simp [remoteEnqueue, h]

theorem remoteEnqueue_closed {s : State} (h : s.linkOpen = false) (b : Byte) :
    remoteEnqueue b s = .error .linkClosed := by simp [remoteEnqueue, h]

theorem raiseNoAcknowledgment_open {s : State} (h : s.linkOpen = true) :
    raiseNoAcknowledgment s = .ok s.enterFailed := by simp [raiseNoAcknowledgment, h]

theorem raiseNoAcknowledgment_closed {s : State} (h : s.linkOpen = false) :
    raiseNoAcknowledgment s = .error .linkClosed := by simp [raiseNoAcknowledgment, h]

/-! ### The Image -/

/-- A read inside an Image that holds the bytes. -/
theorem memRead_inside {i n : Nat} {s : State} (h1 : 1 ≤ n) (h2 : i + n ≤ s.imgLen)
    (h3 : ∀ j < n, (s.img.read (i + j)).isSome = true) :
    ∃ bs, memRead i n s = .ok bs ∧ s.img.readMany i n = some bs := by
  obtain ⟨bs, hbs⟩ := Memory.readMany_isSome h3
  refine ⟨bs, ?_, hbs⟩
  rw [memRead, if_neg (by omega), hbs]

theorem memRead_outside {i n : Nat} {s : State} (h : n = 0 ∨ s.imgLen < i + n) :
    memRead i n s = .error .readOutsideImage := by rw [memRead, if_pos h]

/-- A read that answers stays inside the Image. -/
theorem memRead_ok {i n : Nat} {s : State} {bs : List Byte} (h : memRead i n s = .ok bs) :
    n ≠ 0 ∧ i + n ≤ s.imgLen ∧ s.img.readMany i n = some bs := by
  simp only [memRead] at h
  split at h
  · cases h
  · split at h
    · cases h; exact ⟨by omega, by omega, ‹_›⟩
    · cases h

theorem segNext_end {s : State} (h : s.cursor = s.imgLen) : segNext s = .ok none := by rw [segNext, if_pos h]

/-- What `seg_next` can answer. -/
theorem segNext_ok {s : State} {c : Option (List Byte)} (h : segNext s = .ok c) :
    (s.cursor = s.imgLen ∧ c = none) ∨
    (s.cursor < s.imgLen ∧ ∃ chunk, c = some chunk ∧ chunk.length = chunkSize s.imgLen s.cursor ∧
      s.img.readMany s.cursor (chunkSize s.imgLen s.cursor) = some chunk) := by
  simp only [segNext] at h
  split at h
  · cases h; exact .inl ⟨‹_›, rfl⟩
  · split at h
    · rename_i bs hbs
      cases h
      obtain ⟨h1, h2, h3⟩ := memRead_ok hbs
      have := chunkSize_le_rest s.imgLen s.cursor
      exact .inr ⟨by omega, bs, rfl, (Memory.readMany_spec h3).1, h3⟩
    · cases h

/-- A chunk that the Image holds is the one `seg_next` answers. -/
theorem segNext_chunk {s : State} (h : s.cursor < s.imgLen)
    (hi : ∀ i < s.imgLen, (s.img.read i).isSome = true) :
    ∃ chunk, segNext s = .ok (some chunk) ∧ chunk.length = chunkSize s.imgLen s.cursor ∧
      s.img.readMany s.cursor (chunkSize s.imgLen s.cursor) = some chunk := by
  have h1 := chunkSize_pos h
  have h2 := chunkSize_le_rest s.imgLen s.cursor
  obtain ⟨bs, hbs, hr⟩ := memRead_inside (s := s) (i := s.cursor) h1 (by omega) fun j hj => hi _ (by omega)
  refine ⟨bs, ?_, (Memory.readMany_spec hr).1, hr⟩
  rw [segNext, if_neg (by omega), hbs]

/-! ### The Framer inside a run -/

theorem frame_start_be16 (a : Word16) : frame .start (be16 a) = some (layoutBlock .start (be16 a)) := rfl

theorem frame_data_chunk {payload : List Byte} (h1 : 1 ≤ payload.length) (h2 : payload.length ≤ 255) :
    frame .data payload = some (layoutBlock .data payload) := by
  simp only [frame, frameData]
  rw [if_neg (by omega)]
  rfl

theorem frame_trailer_nil : frame .trailer [] = some (layoutBlock .trailer []) := rfl

/-! ### The stand-alone Framer -/

theorem FramerUnit.accept_frame {kind : Kind} {payload bs : List Byte} (h : frame kind payload = some bs) :
    FramerUnit.accept kind payload = .sending bs := by simp [FramerUnit.accept, h]

theorem FramerUnit.accept_invalid {kind : Kind} {payload : List Byte} (h : frame kind payload = none) :
    FramerUnit.accept kind payload = .invalid := by simp [FramerUnit.accept, h]

@[simp] theorem FramerUnit.cycle_reset {c : FramerIn} (h : c.rst = true) (u : FramerUnit) : u.cycle c = .idle := by
  simp [FramerUnit.cycle, h]

@[simp] theorem FramerUnit.cycle_idle {c : FramerIn} (h : c.rst = false) :
    FramerUnit.idle.cycle c = FramerUnit.take c.request := by simp [FramerUnit.cycle, h]

@[simp] theorem FramerUnit.cycle_invalid {c : FramerIn} (h : c.rst = false) :
    FramerUnit.invalid.cycle c = FramerUnit.take c.request := by simp [FramerUnit.cycle, h]

@[simp] theorem FramerUnit.cycle_sending {c : FramerIn} (h : c.rst = false) (rest : List Byte) :
    (FramerUnit.sending rest).cycle c =
      if c.txReady = true then FramerUnit.remaining rest.tail else .sending rest := by simp [FramerUnit.cycle, h]

@[simp] theorem FramerUnit.ports_sending {c : FramerIn} (h : c.rst = false) (b : Byte) (rest : List Byte) :
    (FramerUnit.sending (b :: rest)).ports c = { tx := some (b, rest.isEmpty), frInvalid := false } := by
  simp [FramerUnit.ports, h]

@[simp] theorem FramerUnit.ports_invalid {c : FramerIn} (h : c.rst = false) :
    FramerUnit.invalid.ports c = { tx := none, frInvalid := true } := by simp [FramerUnit.ports, h]

/-! ### The sending steps -/

/-- The write of a sending step, where the Framer gives the Block and the Link is open. -/
theorem sendBlock_open {kind : Kind} {payload bs : List Byte} {s : State} (h : s.linkOpen = true)
    (hf : frame kind payload = some bs) (n : Nat) (w : Wait) :
    sendBlock kind payload n w s = .next (((s.pushWrite bs).advance n).enterAwait w) := by
  simp [sendBlock, hf, linkWrite_open h]

/-- A sending step that answers wrote one Block, advanced `cursor` and entered its wait. -/
theorem sendBlock_next {kind : Kind} {payload : List Byte} {n : Nat} {w : Wait} {s t : State}
    (h : sendBlock kind payload n w s = .next t) :
    ∃ bs, frame kind payload = some bs ∧ s.linkOpen = true ∧ t = ((s.pushWrite bs).advance n).enterAwait w := by
  simp only [sendBlock] at h
  split at h
  · cases h
  · rename_i bs hbs
    cases ho : s.linkOpen with
    | true => rw [linkWrite_open ho] at h; cases h; exact ⟨bs, hbs, rfl, rfl⟩
    | false => rw [linkWrite_closed ho] at h; cases h

theorem execSessionSendStart_next {s t : State} (h : execSessionSendStart s = .next t) :
    s.state = .sendingStart ∧ s.linkOpen = true ∧
      t = ((s.pushWrite (layoutBlock .start (be16 s.startAddr))).advance 0).enterAwait .startAck := by
  simp only [execSessionSendStart] at h
  split at h
  · obtain ⟨bs, hf, ho, rfl⟩ := sendBlock_next h
    rw [frame_start_be16] at hf
    cases hf
    exact ⟨‹_›, ho, rfl⟩
  · cases h

theorem execSessionSendData_next {s t : State} (h : execSessionSendData s = .next t) :
    s.state = .sendingData ∧ s.cursor < s.imgLen ∧ s.linkOpen = true ∧
      ∃ chunk, chunk.length = chunkSize s.imgLen s.cursor ∧
        s.img.readMany s.cursor (chunkSize s.imgLen s.cursor) = some chunk ∧
        t = ((s.pushWrite (layoutBlock .data chunk)).advance chunk.length).enterAwait .dataAck := by
  simp only [execSessionSendData] at h
  split at h
  · rename_i hs
    split at h
    · cases h
    · cases h
    · rename_i c hc
      obtain ⟨bs, hf, ho, rfl⟩ := sendBlock_next h
      obtain ⟨_, h2⟩ | ⟨_, chunk, hcc, hlen, hread⟩ := segNext_ok hc
      · cases h2
      · cases hcc
        have := chunkSize_pos hs.2
        have := chunkSize_le s.imgLen s.cursor
        rw [frame_data_chunk (by omega) (by omega)] at hf
        cases hf
        exact ⟨hs.1, hs.2, ho, c, hlen, hread, rfl⟩
  · cases h

theorem execSessionNoData_next {s t : State} (h : execSessionNoData s = .next t) :
    s.state = .sendingData ∧ s.cursor = s.imgLen ∧ t = s.goto .sendingTrailer := by
  simp only [execSessionNoData] at h
  split at h
  · cases h; exact ⟨(‹_ ∧ _›).1, (‹_ ∧ _›).2, rfl⟩
  · cases h

theorem execSessionSendTrailer_next {s t : State} (h : execSessionSendTrailer s = .next t) :
    s.state = .sendingTrailer ∧ s.linkOpen = true ∧
      t = ((s.pushWrite (layoutBlock .trailer [])).advance 0).enterAwait .trailerAck := by
  simp only [execSessionSendTrailer] at h
  split at h
  · obtain ⟨bs, hf, ho, rfl⟩ := sendBlock_next h
    rw [frame_trailer_nil] at hf
    cases hf
    exact ⟨‹_›, ho, rfl⟩
  · cases h

/-! ### The poll step -/

/-- All queued bytes read into the buffer. -/
def State.readAll (s : State) : State :=
  (s.dropRx s.rxq.length).pushRxbuf s.rxq

@[simp] theorem State.readAll_eq (s : State) :
    s.readAll = { s with rxq := [], rxbuf := s.rxbuf ++ s.rxq } := by
  simp [State.readAll, State.dropRx, State.pushRxbuf]

theorem SessionState.wait?_eq_some {st : SessionState} {w : Wait} : st.wait? = some w ↔ st = w.session := by
  cases st <;> cases w <;> simp [SessionState.wait?, Wait.session]

@[simp] theorem SessionState.wait?_session (w : Wait) : w.session.wait? = some w := by cases w <;> rfl

@[simp] theorem SessionState.isAwaiting_session (w : Wait) : w.session.isAwaiting = true := by cases w <;> rfl

theorem SessionState.isAwaiting_iff {st : SessionState} : st.isAwaiting = true ↔ ∃ w : Wait, st = w.session := by
  constructor
  · intro h
    obtain ⟨w, hw⟩ := Option.isSome_iff_exists.1 h
    exact ⟨w, SessionState.wait?_eq_some.1 hw⟩
  · rintro ⟨w, rfl⟩; simp

/-- The poll step in a wait over an open Link, as one equation. -/
theorem execAwaitPoll_open {s : State} {w : Wait} (hw : s.state = w.session) (ho : s.linkOpen = true) :
    execAwaitPoll s =
      .next (if s.timeUp = true then s.enterFailed
        else if s.rxq = [] then s
        else if hasNewline (s.rxbuf ++ s.rxq) = true then s.readAll.acknowledge w
        else s.readAll) := by
  simp only [execAwaitPoll, hw, SessionState.wait?_session]
  by_cases ht : s.timeUp = true
  · simp [ht, raiseNoAcknowledgment_open ho]
  · simp only [ht, probe, linkAvail_open ho]
    cases hq : s.rxq with
    | nil => simp
    | cons b q =>
      have hr := linkRead_open (s := s) (n := s.rxq.length) ho (by simp [hq]) (Nat.le_refl _)
      rw [hq] at hr
      simp only [List.length_cons] at hr ⊢
      rw [hr]
      simp only [State.pushRxbuf_rxbuf, State.dropRx_rxbuf, List.take_of_length_le (Nat.le_refl _), ← List.length_cons
        (a := b) (as := q), ← hq]
      have hne : s.rxq ≠ [] := by simp [hq]
      simp only [hne, if_false, Bool.false_eq_true]
      split <;> rfl

/-- The poll step answers in a wait over an open Link only. -/
theorem execAwaitPoll_next {s t : State} (h : execAwaitPoll s = .next t) :
    ∃ w : Wait, s.state = w.session ∧ s.linkOpen = true ∧
      t = if s.timeUp = true then s.enterFailed
        else if s.rxq = [] then s
        else if hasNewline (s.rxbuf ++ s.rxq) = true then s.readAll.acknowledge w
        else s.readAll := by
  cases hw : s.state.wait? with
  | none => simp [execAwaitPoll, hw] at h
  | some w =>
    have hs := SessionState.wait?_eq_some.1 hw
    cases ho : s.linkOpen with
    | true => rw [execAwaitPoll_open hs ho] at h; exact ⟨w, hs, rfl, by cases h; rfl⟩
    | false =>
      simp only [execAwaitPoll, hw, raiseNoAcknowledgment_closed ho, probe, linkAvail_closed ho] at h
      split at h <;> cases h

/-! ### The core's step -/

/-- The operation the core runs next is run as the core's step runs it. -/
theorem exec_coreInstr (s : State) : exec (coreInstr s) s = coreStep s := by
  unfold coreInstr coreStep
  split
  all_goals try rfl
  split <;> rfl

/-- What one step of the core can do. -/
theorem coreStep_next {s t : State} (h : coreStep s = .next t) :
    (t = s ∧ (s.state = .idle ∨ s.state = .done ∨ s.state = .failed)) ∨
    execSessionSendStart s = .next t ∨ execSessionSendData s = .next t ∨ execSessionNoData s = .next t ∨
    execSessionSendTrailer s = .next t ∨ execAwaitPoll s = .next t := by
  unfold coreStep at h
  split at h
  case h_1 hs => simp only [execSessionIdle, hs, if_true] at h; cases h; exact .inl ⟨rfl, .inl hs⟩
  case h_4 => split at h <;> simp [h]
  case h_8 hs => simp only [execSessionDone, hs, if_true] at h; cases h; exact .inl ⟨rfl, .inr (.inl hs)⟩
  case h_9 hs => simp only [execSessionFailed, hs, if_true] at h; cases h; exact .inl ⟨rfl, .inr (.inr hs)⟩
  all_goals simp [h]

end Sys2Proof.Machine
end

