-- ==== Sys2Proof/Laws/Exec.lean ====
section
/-! SUPPORT. What each operation that is not a function can do, said once (`exec_cases`), and the same of the steps of
the agents (`execEvent_cases`). -/

namespace Sys2Proof.Machine

/-- What an operation other than a function of a sub-block and other than UPLOAD leaves when it answers. -/
inductive ExecCase (s : State) : Instr → State → Prop where
  | startIgnored (a : Word16) (n : Nat) (v : Word16) (h : s.state ≠ .idle ∨ s.linkOpen = false) :
      ExecCase s (.hostStart a n v) s
  | start (a : Word16) (n : Nat) (v : Word16) (h : s.state = .idle) (ho : s.linkOpen = true) :
      ExecCase s (.hostStart a n v) (s.latchStart a n v)
  | reset : ExecCase s .hostReset s.resetRegs
  | idle (h : s.state = .idle) : ExecCase s .sessionIdle s
  | done (h : s.state = .done) : ExecCase s .sessionDone s
  | failed (h : s.state = .failed) : ExecCase s .sessionFailed s
  | sendStart (h : s.state = .sendingStart) (ho : s.linkOpen = true) :
      ExecCase s .sessionSendStart
        (((s.pushWrite (layoutBlock .start (be16 s.startAddr))).advance 0).enterAwait .startAck)
  | sendData (h : s.state = .sendingData) (hc : s.cursor < s.imgLen) (ho : s.linkOpen = true) (chunk : List Byte)
      (hl : chunk.length = chunkSize s.imgLen s.cursor)
      (hr : s.img.readMany s.cursor (chunkSize s.imgLen s.cursor) = some chunk) :
      ExecCase s .sessionSendData
        (((s.pushWrite (layoutBlock .data chunk)).advance chunk.length).enterAwait .dataAck)
  | noData (h : s.state = .sendingData) (hc : s.cursor = s.imgLen) :
      ExecCase s .sessionNoData (s.goto .sendingTrailer)
  | sendTrailer (h : s.state = .sendingTrailer) (ho : s.linkOpen = true) :
      ExecCase s .sessionSendTrailer (((s.pushWrite (layoutBlock .trailer [])).advance 0).enterAwait .trailerAck)
  | enter (w : Wait) (h : s.state = w.sender) : ExecCase s (.awaitEnter w) (s.enterAwait w)
  | pollTimeout (w : Wait) (h : s.state = w.session) (ho : s.linkOpen = true) (ht : s.timeUp = true) :
      ExecCase s .awaitPoll s.enterFailed
  | pollNothing (w : Wait) (h : s.state = w.session) (ho : s.linkOpen = true) (ht : s.timeUp = false)
      (hq : s.rxq = []) : ExecCase s .awaitPoll s
  | pollAck (w : Wait) (h : s.state = w.session) (ho : s.linkOpen = true) (ht : s.timeUp = false) (hq : s.rxq ≠ [])
      (hn : hasNewline (s.rxbuf ++ s.rxq) = true) : ExecCase s .awaitPoll (s.readAll.acknowledge w)
  | pollRead (w : Wait) (h : s.state = w.session) (ho : s.linkOpen = true) (ht : s.timeUp = false) (hq : s.rxq ≠ [])
      (hn : hasNewline (s.rxbuf ++ s.rxq) = false) : ExecCase s .awaitPoll s.readAll
  | ack (w : Wait) (h : s.state = w.session) : ExecCase s .awaitAck (s.acknowledge w)
  | timeout (w : Wait) (h : s.state = w.session) (ho : s.linkOpen = true) : ExecCase s .awaitTimeout s.enterFailed
  | tick : ExecCase s .tick s.tick
  | opened (d : String) (r : Nat) (q : List Byte) : ExecCase s (.linkOpen d r (.opened q)) (s.openLink d r q)
  | unavailable (d : String) (r : Nat) : ExecCase s (.linkOpen d r .unavailable) (s.answering .linkUnavailable)
  | write (bs : List Byte) (ho : s.linkOpen = true) : ExecCase s (.linkWrite bs) ((s.pushWrite bs).answering (.count bs.length))
  | read (n : Nat) (ho : s.linkOpen = true) (h1 : 1 ≤ n) (h2 : n ≤ s.rxq.length) :
      ExecCase s (.linkRead n) ((s.dropRx n).answering (.bytes (s.rxq.take n)))
  | close (ho : s.linkOpen = true) : ExecCase s .linkClose s.closeLink
  | enqueue (b : Byte) (ho : s.linkOpen = true) : ExecCase s (.remoteEnqueue b) (s.pushRx b)

/-- The one inversion lemma of the operations. -/
theorem exec_cases {i : Instr} {s t : State} (hf : isFunction i = false)
    (hu : ∀ a v image waits, i ≠ .upload a v image waits) (h : exec i s = .next t) : ExecCase s i t := by
  cases i <;> simp only [isFunction, reduceCtorEq] at hf <;> simp only [exec] at h
  case hostStart a n v =>
    simp only [execHostStart] at h
    split at h
    · rename_i hs; cases h; exact .start a n v hs.1 hs.2
    · rename_i hs
      cases h
      refine .startIgnored a n v ?_
      by_cases hi : s.state = .idle
      · exact .inr (by simpa [hi] using hs)
      · exact .inl hi
  case hostReset => cases h; exact .reset
  case sessionIdle => simp only [execSessionIdle] at h; split at h <;> cases h; exact .idle ‹_›
  case sessionDone => simp only [execSessionDone] at h; split at h <;> cases h; exact .done ‹_›
  case sessionFailed => simp only [execSessionFailed] at h; split at h <;> cases h; exact .failed ‹_›
  case sessionSendStart => obtain ⟨h1, h2, rfl⟩ := execSessionSendStart_next h; exact .sendStart h1 h2
  case sessionSendData =>
    obtain ⟨h1, h2, h3, c, hl, hr, rfl⟩ := execSessionSendData_next h; exact .sendData h1 h2 h3 c hl hr
  case sessionNoData => obtain ⟨h1, h2, rfl⟩ := execSessionNoData_next h; exact .noData h1 h2
  case sessionSendTrailer => obtain ⟨h1, h2, rfl⟩ := execSessionSendTrailer_next h; exact .sendTrailer h1 h2
  case awaitEnter w => simp only [execAwaitEnter] at h; split at h <;> cases h; exact .enter w ‹_›
  case awaitPoll =>
    obtain ⟨w, hw, ho, rfl⟩ := execAwaitPoll_next h
    by_cases ht : s.timeUp = true
    · rw [if_pos ht]; exact .pollTimeout w hw ho ht
    · rw [if_neg ht]
      have ht' : s.timeUp = false := by simpa using ht
      by_cases hq : s.rxq = []
      · rw [if_pos hq]; exact .pollNothing w hw ho ht' hq
      · rw [if_neg hq]
        by_cases hn : hasNewline (s.rxbuf ++ s.rxq) = true
        · rw [if_pos hn]; exact .pollAck w hw ho ht' hq hn
        · rw [if_neg hn]; exact .pollRead w hw ho ht' hq (by simpa using hn)
  case awaitAck =>
    simp only [execAwaitAck] at h
    split at h <;> cases h
    rename_i w hw
    exact .ack w (SessionState.wait?_eq_some.1 hw)
  case awaitTimeout =>
    simp only [execAwaitTimeout] at h
    split at h
    · cases h
    · rename_i w hw
      cases ho : s.linkOpen with
      | false => rw [raiseNoAcknowledgment_closed ho] at h; cases h
      | true =>
        rw [raiseNoAcknowledgment_open ho] at h
        cases h
        exact .timeout w (SessionState.wait?_eq_some.1 hw) ho
  case tick => cases h; exact .tick
  case linkOpen d r q =>
    cases q with
    | opened q => cases h; exact .opened d r q
    | unavailable => cases h; exact .unavailable d r
  case linkWrite bs =>
    simp only [execLinkWrite] at h
    cases ho : s.linkOpen with
    | false => rw [linkWrite_closed ho] at h; cases h
    | true => rw [linkWrite_open ho] at h; cases h; exact .write bs ho
  case linkRead n =>
    simp only [execLinkRead, linkRead] at h
    cases ho : s.linkOpen with
    | false => simp [ho] at h
    | true =>
      by_cases hn : n = 0 ∨ s.rxq.length < n
      · simp [ho, hn] at h
      · simp only [ho, hn, if_true, if_false] at h
        cases h
        exact .read n ho (by omega) (by omega)
  case linkClose =>
    simp only [execLinkClose] at h
    cases ho : s.linkOpen with
    | false => rw [linkClose_closed ho] at h; cases h
    | true => rw [linkClose_open ho] at h; cases h; exact .close ho
  case remoteEnqueue b =>
    simp only [execRemoteEnqueue] at h
    cases ho : s.linkOpen with
    | false => rw [remoteEnqueue_closed ho] at h; cases h
    | true => rw [remoteEnqueue_open ho] at h; cases h; exact .enqueue b ho
  case upload => exact absurd rfl (hu _ _ _ _)

/-- A Framer request answers and does nothing else. -/
theorem exec_requestOf (kind : Kind) (payload : List Byte) (s : State) :
    exec (requestOf kind payload) s = .next (s.answering (framerAnswer kind payload)) := by
  unfold requestOf
  split
  · cases kind <;> rfl
  · rfl

/-- What a step of the environment leaves when it answers. -/
theorem execEnv_cases {e : EnvEvent} {s t : State} (h : execEnv e s = .next t) :
    (∃ b, e = .rx b ∧ s.linkOpen = true ∧ t = s.pushRx b) ∨
    (s.busy = false ∧
      ((∃ d r q, t = s.openLink d r q) ∨ t = s.answering .linkUnavailable ∨ (s.state = .done ∧ t = s.closeLink) ∨
        ∃ image, t = s.loadImage image)) := by
  cases e with
  | rx b =>
    cases exec_cases (i := .remoteEnqueue b) rfl (by simp) h with
    | enqueue _ ho => exact .inl ⟨b, rfl, ho, rfl⟩
  | openLink d r q =>
    simp only [execEnv] at h
    split at h
    · cases h
    · rename_i hb
      have hb : s.busy = false := by simpa using hb
      cases exec_cases (i := .linkOpen d r q) rfl (by simp) h with
      | opened _ _ q => exact .inr ⟨hb, .inl ⟨_, _, _, rfl⟩⟩
      | unavailable => exact .inr ⟨hb, .inr (.inl rfl)⟩
  | closeLink =>
    simp only [execEnv] at h
    split at h
    · rename_i hd
      cases exec_cases (i := .linkClose) rfl (by simp) h with
      | close ho => exact .inr ⟨by simp [State.busy, hd], .inr (.inr (.inl ⟨hd, rfl⟩))⟩
    · cases h
  | loadImage image =>
    simp only [execEnv] at h
    split at h
    · cases h
    · rename_i hb
      cases h
      exact .inr ⟨by simpa using hb, .inr (.inr (.inr ⟨image, rfl⟩))⟩

/-- What one transaction-level step leaves when it answers: the core's own step, a tick, a start command, a reset, a step
of the environment, or an answer of the stand-alone Framer. -/
theorem execEvent_cases {e : Event} {s t : State} (h : execEvent e s = .next t) :
    (e = .core ∧ coreStep s = .next t) ∨ (e = .tick ∧ t = s.tick) ∨
    (∃ a n v, e = .start a n v ∧
      (((s.state ≠ .idle ∨ s.linkOpen = false) ∧ t = s) ∨
        (s.state = .idle ∧ s.linkOpen = true ∧ t = s.latchStart a n v))) ∨
    (e = .reset ∧ t = s.resetRegs) ∨ (∃ v, e = .env v ∧ execEnv v s = .next t) ∨ (∃ a, t = s.answering a) := by
  cases e with
  | core => rw [execEvent, exec_coreInstr] at h; exact .inl ⟨rfl, h⟩
  | tick => cases h; simp
  | start a n v =>
    cases exec_cases (i := .hostStart a n v) rfl (by simp) h with
    | startIgnored _ _ _ hs => exact .inr (.inr (.inl ⟨a, n, v, rfl, .inl ⟨hs, rfl⟩⟩))
    | start _ _ _ hs ho => exact .inr (.inr (.inl ⟨a, n, v, rfl, .inr ⟨hs, ho, rfl⟩⟩))
  | reset => cases h; simp
  | env v => exact .inr (.inr (.inr (.inr (.inl ⟨v, rfl, h⟩))))
  | framerRequest kind payload =>
    rw [execEvent, exec_requestOf] at h
    cases h
    exact .inr (.inr (.inr (.inr (.inr ⟨_, rfl⟩))))
  | framerWord bs =>
    simp only [execEvent, execWord] at h
    split at h
    · rename_i i hd
      obtain ⟨kind, payload, rfl⟩ := decode_is_request hd
      rw [exec_requestOf] at h
      cases h
      exact .inr (.inr (.inr (.inr (.inr ⟨_, rfl⟩))))
    · cases h

/-- The cases of one step of the core, each with what it leaves. -/
theorem coreStep_cases {s t : State} (h : coreStep s = .next t) :
    (t = s ∧ s.busy = false) ∨ ExecCase s .sessionSendStart t ∨ ExecCase s .sessionSendData t ∨
    ExecCase s .sessionNoData t ∨ ExecCase s .sessionSendTrailer t ∨ ExecCase s .awaitPoll t := by
  rcases coreStep_next h with ⟨rfl, hs⟩ | h | h | h | h | h
  · refine .inl ⟨rfl, ?_⟩
    rcases hs with hs | hs | hs <;> simp [State.busy, hs]
  · exact .inr (.inl (exec_cases (i := .sessionSendStart) rfl (by simp) h))
  · exact .inr (.inr (.inl (exec_cases (i := .sessionSendData) rfl (by simp) h)))
  · exact .inr (.inr (.inr (.inl (exec_cases (i := .sessionNoData) rfl (by simp) h))))
  · exact .inr (.inr (.inr (.inr (.inl (exec_cases (i := .sessionSendTrailer) rfl (by simp) h)))))
  · exact .inr (.inr (.inr (.inr (.inr (exec_cases (i := .awaitPoll) rfl (by simp) h)))))

end Sys2Proof.Machine
end

