-- ==== Sys2Proof/Laws/Clocked.lean ====
section
/-! SUPPORT. What one clock cycle can do, said once (`clockCycle_cases`). -/

namespace Sys2Proof.Machine

/-- What the core leaves in a cycle without reset. -/
inductive CycleCase (inputs : ClockIn) (s : State) : State → Prop where
  | rest (h : s.busy = false) (hn : ¬ (s.state = .idle ∧ inputs.start = true ∧ s.linkOpen = true)) : CycleCase inputs s s
  | latch (h : s.state = .idle) (ho : s.linkOpen = true) (hs : inputs.start = true) :
      CycleCase inputs s (s.latchStart inputs.startAddrI inputs.imgLenI inputs.timeoutMsI).loadBlk
  | stall (h : s.sendsBlock = true) (ho : s.linkOpen = true) (hr : inputs.txReady = false) (b : Byte)
      (hb : s.txByte? = some b) : CycleCase inputs s s
  | byte (h : s.sendsBlock = true) (ho : s.linkOpen = true) (hr : inputs.txReady = true) (b : Byte)
      (hb : s.txByte? = some b) (hl : s.txLast = false) : CycleCase inputs s (s.transferByte b)
  | last (h : s.sendsBlock = true) (ho : s.linkOpen = true) (hr : inputs.txReady = true) (b : Byte)
      (hb : s.txByte? = some b) (hl : s.txLast = true) : CycleCase inputs s (s.transferByte b).finishBlock
  | noData (h : s.state = .sendingData) (hc : s.cursor = s.imgLen) :
      CycleCase inputs s (s.goto .sendingTrailer).loadBlk
  | timeout (w : Wait) (h : s.state = w.session) (hd : s.drain = none) (ht : s.timeUp = true) (ho : s.linkOpen = true) :
      CycleCase inputs s s.enterFailed
  | quiet (w : Wait) (h : s.state = w.session) (hd : s.drain = none) (ht : s.timeUp = false) (ho : s.linkOpen = true)
      (hq : s.rxq = []) : CycleCase inputs s s
  | sample (w : Wait) (h : s.state = w.session) (hd : s.drain = none) (ht : s.timeUp = false) (ho : s.linkOpen = true)
      (hq : s.rxq ≠ []) : CycleCase inputs s { s with drain := some s.rxq.length }
  | pop (w : Wait) (h : s.state = w.session) (k : Nat) (hd : s.drain = some (k + 1)) (ho : s.linkOpen = true)
      (hq : s.rxq ≠ []) :
      CycleCase inputs s { s with rxq := s.rxq.drop 1, rxbuf := s.rxbuf ++ s.rxq.take 1, drain := some k }
  | ack (w : Wait) (h : s.state = w.session) (hd : s.drain = some 0) (hn : hasNewline s.rxbuf = true) :
      CycleCase inputs s (({ s with drain := none }).acknowledge w).loadBlk
  | noAck (w : Wait) (h : s.state = w.session) (hd : s.drain = some 0) (hn : hasNewline s.rxbuf = false) :
      CycleCase inputs s { s with drain := none }

theorem sendCycle_cases {inputs : ClockIn} {s t : State} (hs : s.sendsBlock = true) (h : sendCycle inputs s = .next t) :
    CycleCase inputs s t := by
  simp only [sendCycle] at h
  split at h
  · rename_i ho
    split at h
    · cases h
    · rename_i b hb
      split at h
      · rename_i hr
        cases h
        split
        · exact .last hs ho hr b hb ‹_›
        · exact .byte hs ho hr b hb (Bool.eq_false_iff.2 ‹_›)
      · cases h; exact .stall hs ho (Bool.eq_false_iff.2 ‹_›) b hb
  · cases h

theorem awaitCycle_cases {inputs : ClockIn} {w : Wait} {s t : State} (hw : s.state = w.session)
    (h : awaitCycle w s = .next t) : CycleCase inputs s t := by
  simp only [awaitCycle] at h
  split at h
  · rename_i hd
    split at h
    · rename_i ht
      cases ho : s.linkOpen with
      | false => rw [raiseNoAcknowledgment_closed ho] at h; cases h
      | true => rw [raiseNoAcknowledgment_open ho] at h; cases h; exact .timeout w hw hd ht ho
    · rename_i ht
      have ht : s.timeUp = false := by simpa using ht
      cases ho : s.linkOpen with
      | false => rw [linkAvail_closed ho] at h; cases h
      | true =>
        rw [linkAvail_open ho] at h
        cases hq : s.rxq with
        | nil => simp only [hq, List.length_nil] at h; cases h; exact .quiet w hw hd ht ho hq
        | cons x q =>
          simp only [hq, List.length_cons] at h
          cases h
          have := CycleCase.sample (inputs := inputs) w hw hd ht ho (by simp [hq])
          rwa [hq] at this
  · rename_i k hd
    cases ho : s.linkOpen with
    | false => rw [linkRead_closed ho] at h; cases h
    | true =>
      by_cases hq : s.rxq = []
      · simp [linkRead, ho, hq] at h
      · have : 1 ≤ s.rxq.length := by cases hq' : s.rxq <;> simp_all
        rw [linkRead_open ho (Nat.le_refl 1) this] at h
        cases h
        exact .pop w hw k hd ho hq
  · rename_i hd
    split at h
    · cases h; exact .ack w hw hd ‹_›
    · cases h; exact .noAck w hw hd (Bool.eq_false_iff.2 ‹_›)

theorem coreCycle_cases {inputs : ClockIn} {s t : State} (h : coreCycle inputs s = .next t) : CycleCase inputs s t := by
  unfold coreCycle at h
  split at h
  case h_1 hs =>
    split at h
    · rename_i hi; cases h; exact .latch hs hi.2 hi.1
    · rename_i hn; cases h; exact .rest (by simp [State.busy, hs]) fun hx => hn hx.2
  case h_2 hs => exact sendCycle_cases (by simp [State.sendsBlock, hs, SessionState.isSending]) h
  case h_3 hs => exact awaitCycle_cases (w := .startAck) hs h
  case h_4 hs =>
    split at h
    · cases h; exact .noData hs ‹_›
    · rename_i hc; exact sendCycle_cases (by simp [State.sendsBlock, hs, SessionState.isSending, hc]) h
  case h_5 hs => exact awaitCycle_cases (w := .dataAck) hs h
  case h_6 hs => exact sendCycle_cases (by simp [State.sendsBlock, hs, SessionState.isSending]) h
  case h_7 hs => exact awaitCycle_cases (w := .trailerAck) hs h
  case h_8 hs => cases h; exact .rest (by simp [State.busy, hs]) (by simp [hs])
  case h_9 hs => cases h; exact .rest (by simp [State.busy, hs]) (by simp [hs])

/-- One cycle: a reset, or the core's own change with the cycle's tick after it. -/
theorem clockCycle_cases {inputs : ClockIn} {s t : State} (h : clockCycle inputs s = .next t) :
    (inputs.rst = true ∧ t = s.resetRegs) ∨
    (inputs.rst = false ∧ ∃ u, CycleCase inputs s u ∧ t = tickCycle inputs s u) := by
  simp only [clockCycle] at h
  split at h
  · cases h; exact .inl ⟨‹_›, rfl⟩
  · obtain ⟨u, hu, ht⟩ := Result.andThen_inv h
    cases ht
    exact .inr ⟨Bool.eq_false_iff.2 ‹_›, u, coreCycle_cases hu, rfl⟩

end Sys2Proof.Machine
end

