-- ==== Sys2Proof/Laws/PerInstr.lean ====
section
/-! SUPPORT. Laws about every operation as syntax, one lemma per constructor. `TableMatch`: an encoding starts with the
first word the opcode table gives its row (R58). -/

namespace Sys2Proof.Laws.TableMatch

/-- The first word of the row, as bytes; none for the rows without an encoding. -/
def firstWord : Instr → List Byte
  | .frameStart _ => [0x55, 0x3C, 0x00, 0x02]
  | .frameData p => [0x55, 0x3C, 0x01, Machine.lenByte p.length]
  | .frameTrailer _ => [0x55, 0x3C, 0xFF, 0x00]
  | .frameInvalid k p => [0x55, 0x3C, k.byte, Machine.lenByte p.length]
  | .checksum _ => []
  | .segNext => []
  | .hostStart _ _ _ => []
  | .hostReset => []
  | .sessionIdle => []
  | .sessionSendStart => []
  | .sessionSendData => []
  | .sessionNoData => []
  | .sessionSendTrailer => []
  | .sessionAckNext => []
  | .sessionDone => []
  | .sessionFailed => []
  | .awaitEnter _ => []
  | .awaitPoll => []
  | .awaitAck => []
  | .awaitTimeout => []
  | .tick => []
  | .linkOpen _ _ _ => []
  | .linkWrite _ => []
  | .linkAvail => []
  | .linkRead _ => []
  | .linkClose => []
  | .remoteEnqueue _ => []
  | .memRead _ _ => []
  | .upload _ _ _ _ => []
  | .ackLine _ => []

/-- Every encoding of a well-formed operation starts with its row's first word. -/
def Statement (i : Instr) : Prop :=
  i.wellFormed = true → ∀ bs, encode i = some bs → firstWord i <+: bs

theorem frameStart (payload : List Byte) : Statement (.frameStart payload) := by
  intro h bs hb
  have hl : payload.length = 2 := (Kind.legalLen_start _).1 h
  cases hb
  exact ⟨_, by simp [layoutBlock, firstWord, hl, Config.head, Config.sync, Kind.byte, Machine.lenByte]; rfl⟩

theorem frameData (payload : List Byte) : Statement (.frameData payload) := by
  intro _ bs hb
  cases hb
  exact ⟨_, by simp [layoutBlock, firstWord, Config.head, Config.sync, Kind.byte]; rfl⟩

theorem frameTrailer (payload : List Byte) : Statement (.frameTrailer payload) := by
  intro h bs hb
  have hl : payload.length = 0 := (Kind.legalLen_trailer _).1 h
  cases hb
  exact ⟨_, by simp [layoutBlock, firstWord, hl, Config.head, Config.sync, Kind.byte, Machine.lenByte]; rfl⟩

theorem frameInvalid (kind : Kind) (payload : List Byte) : Statement (.frameInvalid kind payload) := by
  intro _ bs hb
  simp only [encode] at hb
  split at hb
  · cases hb; exact ⟨_, rfl⟩
  · cases hb

theorem checksum (bs : List Byte) : Statement (.checksum bs) := fun _ _ h => nomatch h

theorem segNext : Statement .segNext := fun _ _ h => nomatch h

theorem hostStart (a : Word16) (n : Nat) (v : Word16) : Statement (.hostStart a n v) := fun _ _ h => nomatch h

theorem hostReset : Statement .hostReset := fun _ _ h => nomatch h

theorem sessionIdle : Statement .sessionIdle := fun _ _ h => nomatch h

theorem sessionSendStart : Statement .sessionSendStart := fun _ _ h => nomatch h

theorem sessionSendData : Statement .sessionSendData := fun _ _ h => nomatch h

theorem sessionNoData : Statement .sessionNoData := fun _ _ h => nomatch h

theorem sessionSendTrailer : Statement .sessionSendTrailer := fun _ _ h => nomatch h

theorem sessionAckNext : Statement .sessionAckNext := fun _ _ h => nomatch h

theorem sessionDone : Statement .sessionDone := fun _ _ h => nomatch h

theorem sessionFailed : Statement .sessionFailed := fun _ _ h => nomatch h

theorem awaitEnter (w : Wait) : Statement (.awaitEnter w) := fun _ _ h => nomatch h

theorem awaitPoll : Statement .awaitPoll := fun _ _ h => nomatch h

theorem awaitAck : Statement .awaitAck := fun _ _ h => nomatch h

theorem awaitTimeout : Statement .awaitTimeout := fun _ _ h => nomatch h

theorem tick : Statement .tick := fun _ _ h => nomatch h

theorem linkOpen (device : String) (baud : Nat) (reply : LinkReply) : Statement (.linkOpen device baud reply) := fun _ _ h => nomatch h

theorem linkWrite (bs : List Byte) : Statement (.linkWrite bs) := fun _ _ h => nomatch h

theorem linkAvail : Statement .linkAvail := fun _ _ h => nomatch h

theorem linkRead (n : Nat) : Statement (.linkRead n) := fun _ _ h => nomatch h

theorem linkClose : Statement .linkClose := fun _ _ h => nomatch h

theorem remoteEnqueue (b : Byte) : Statement (.remoteEnqueue b) := fun _ _ h => nomatch h

theorem memRead (i n : Nat) : Statement (.memRead i n) := fun _ _ h => nomatch h

theorem upload (a v : Word16) (image : List Byte) (waits : List WaitPlay) : Statement (.upload a v image waits) := fun _ _ h => nomatch h

theorem ackLine (bs : List Byte) : Statement (.ackLine bs) := fun _ _ h => nomatch h

end Sys2Proof.Laws.TableMatch
end

