-- ==== Sys2Proof/Laws/Session.lean ====
section
/-! SUPPORT. The parts of a whole session (UPLOAD): what receiving a line, a number of ticks, one poll step and one
played wait can do. -/

namespace Sys2Proof.Machine

/-- The tick counter as a number (R96). -/
theorem saturatingInc_toNat (v : Word16) : (saturatingInc v).toNat = min (v.toNat + 1) 65535 := by
  unfold saturatingInc
  split
  · rename_i h; rw [h]; decide
  · rename_i h
    have : v.toNat ≠ 65535 := fun h' => h (by apply BitVec.eq_of_toNat_eq; rw [h']; decide)
    have := v.isLt
    rw [BitVec.toNat_add]
    simp
    omega

/-- A line received over an open Link is appended to the queue. -/
theorem receive_open (line : List Byte) {s : State} (ho : s.linkOpen = true) :
    receive line s = .next { s with rxq := s.rxq ++ line } := by
  induction line generalizing s with
  | nil => simp [receive]
  | cons b line ih =>
    simp only [receive, execRemoteEnqueue, remoteEnqueue_open ho, Result.ofExcept_ok, Result.andThen_next]
    rw [ih (s := s.pushRx b) ho]
    simp [State.pushRx]

/-- `k` ticks in a wait. -/
theorem ticks_awaiting (k : Nat) {s : State} (h : s.state.isAwaiting = true) :
    ∃ v : Word16, v.toNat = min (s.wdElapsed.toNat + k) 65535 ∧ ticks k s = { s with wdElapsed := v } := by
  induction k generalizing s with
  | zero =>
    have := s.wdElapsed.isLt
    exact ⟨s.wdElapsed, by omega, rfl⟩
  | succ k ih =>
    obtain ⟨v, hv, he⟩ := ih (s := { s with wdElapsed := saturatingInc s.wdElapsed }) h
    refine ⟨v, ?_, ?_⟩
    · rw [hv]
      simp only [saturatingInc_toNat]
      omega
    · simp only [ticks, State.tick, h, if_true]
      rw [he]

/-- What no step inside a wait changes. -/
structure WaitFrame (s t : State) : Prop where
  start_addr : t.startAddr = s.startAddr
  img_len : t.imgLen = s.imgLen
  timeout_ms : t.timeoutMs = s.timeoutMs
  cursor : t.cursor = s.cursor
  img : t.img = s.img
  txlog : t.txlog = s.txlog
  wire : t.wire = s.wire
  device : t.linkDevice = s.linkDevice
  baud : t.linkBaud = s.linkBaud

theorem WaitFrame.trans {s t u : State} (h : WaitFrame s t) (k : WaitFrame t u) : WaitFrame s u :=
  ⟨k.start_addr.trans h.start_addr, k.img_len.trans h.img_len, k.timeout_ms.trans h.timeout_ms,
    k.cursor.trans h.cursor, k.img.trans h.img, k.txlog.trans h.txlog, k.wire.trans h.wire,
    k.device.trans h.device, k.baud.trans h.baud⟩

/-- The wait has ended in an acknowledgment. -/
structure WaitAcked (w : Wait) (s t : State) : Prop where
  state : t.state = w.next
  link_open : t.linkOpen = true
  err : t.err = s.err
  rxbuf : t.rxbuf = []
  diag : t.diag.length = s.diag.length + 1

/-- The wait has ended in the timeout. -/
structure WaitTimedOut (s t : State) : Prop where
  state : t.state = .failed
  err : t.err = .noAcknowledgment
  link_open : t.linkOpen = false
  diag : t.diag = s.diag

/-- The wait goes on. -/
structure WaitGoesOn (s t : State) : Prop where
  state : t.state = s.state
  link_open : t.linkOpen = true
  diag : t.diag = s.diag

theorem timeUp_iff (s : State) : s.timeUp = true ↔ s.timeoutMs.toNat ≤ s.wdElapsed.toNat := by
  rw [State.timeUp, BitVec.ule_iff_toNat_le]

/-- A poll step after the timeout. -/
theorem execAwaitPoll_late {s : State} {w : Wait} (hw : s.state = w.session) (ho : s.linkOpen = true)
    (ht : s.timeoutMs.toNat ≤ s.wdElapsed.toNat) : execAwaitPoll s = .next s.enterFailed := by
  rw [execAwaitPoll_open hw ho, if_pos ((timeUp_iff s).2 ht)]

theorem enterFailed_timedOut (s : State) : WaitFrame s s.enterFailed ∧ WaitTimedOut s s.enterFailed :=
  ⟨⟨rfl, rfl, rfl, rfl, rfl, rfl, rfl, rfl, rfl⟩, ⟨rfl, rfl, rfl, rfl⟩⟩

/-- A poll step before the timeout with nothing read yet: the queue's bytes decide. -/
theorem execAwaitPoll_early {s : State} {w : Wait} (hw : s.state = w.session) (ho : s.linkOpen = true)
    (hb : s.rxbuf = []) (ht : s.wdElapsed.toNat < s.timeoutMs.toNat) :
    ∃ t, execAwaitPoll s = .next t ∧ WaitFrame s t ∧
      ((0x0A ∈ s.rxq ∧ WaitAcked w s t) ∨ (0x0A ∉ s.rxq ∧ WaitGoesOn s t)) := by
  have ht' : ¬ s.timeUp = true := by rw [timeUp_iff]; omega
  rw [execAwaitPoll_open hw ho, if_neg ht']
  by_cases hq : s.rxq = []
  · rw [if_pos hq]
    exact ⟨s, rfl, ⟨rfl, rfl, rfl, rfl, rfl, rfl, rfl, rfl, rfl⟩, .inr ⟨by simp [hq], ⟨rfl, ho, rfl⟩⟩⟩
  · rw [if_neg hq, hb, List.nil_append]
    by_cases hn : hasNewline s.rxq = true
    · rw [if_pos hn]
      refine ⟨_, rfl, by constructor <;> simp, .inl ⟨(hasNewline_iff _).1 hn, ?_⟩⟩
      constructor <;> simp [ho]
    · rw [if_neg hn]
      refine ⟨_, rfl, by constructor <;> simp, .inr ⟨by rwa [hasNewline_iff] at hn, ?_⟩⟩
      constructor <;> simp [ho]

/-- One played wait: it always ends, in an acknowledgment where the line holds an `NL` and the core polls in time, in the
timeout where no `NL` arrives. -/
theorem playWait_ends (p : WaitPlay) {s : State} {w : Wait} (hw : s.state = w.session) (ho : s.linkOpen = true)
    (hz : s.wdElapsed = 0) (hb : s.rxbuf = []) :
    ∃ t, playWait p s = .next t ∧ WaitFrame s t ∧ (WaitAcked w s t ∨ WaitTimedOut s t) ∧
      (p.acknowledges s.timeoutMs → WaitAcked w s t) ∧
      (0x0A ∉ s.rxq → 0x0A ∉ p.line → WaitTimedOut s t) := by
  have ha : s.state.isAwaiting = true := by simp [hw]
  obtain ⟨v, hv, he⟩ := ticks_awaiting p.ticks (s := { s with rxq := s.rxq ++ p.line }) ha
  simp only [playWait, receive_open _ ho, Result.andThen_next, he]
  simp only [hz] at hv
  have htl := s.timeoutMs.isLt
  by_cases ht : s.timeoutMs.toNat ≤ v.toNat
  · rw [execAwaitPoll_late (w := w) (by exact hw) (by exact ho) (by exact ht)]
    refine ⟨_, rfl, ⟨rfl, rfl, rfl, rfl, rfl, rfl, rfl, rfl, rfl⟩, .inr ⟨rfl, rfl, rfl, rfl⟩, ?_, ?_⟩
    · rintro ⟨_, h⟩
      simp at hv
      omega
    · intros
      exact ⟨rfl, rfl, rfl, rfl⟩
  · obtain ⟨t, h1, hf, h2⟩ := execAwaitPoll_early
      (s := { s with rxq := s.rxq ++ p.line, wdElapsed := v }) (w := w) hw ho hb (Nat.lt_of_not_le ht)
    have hf : WaitFrame s t := ⟨hf.1, hf.2, hf.3, hf.4, hf.5, hf.6, hf.7, hf.8, hf.9⟩
    rw [h1, Result.andThen_next]
    rcases h2 with ⟨hn, h2⟩ | ⟨hn, h2⟩
    · have hna : t.state.isAwaiting = false := by rw [h2.state]; cases w <;> rfl
      have h2 : WaitAcked w s t := ⟨h2.state, h2.link_open, h2.err, h2.rxbuf, h2.diag⟩
      refine ⟨t, by simp [hna], hf, .inl h2, fun _ => h2, fun a b => ?_⟩
      rcases List.mem_append.1 hn with h | h <;> contradiction
    · have htw : t.state = w.session := h2.state.trans hw
      have hta : t.state.isAwaiting = true := by simp [htw]
      obtain ⟨v', hv', he'⟩ := ticks_awaiting t.timeoutMs.toNat hta
      have hlate := execAwaitPoll_late (s := { t with wdElapsed := v' }) (w := w) htw h2.link_open (by
        simp only [hv']
        have := t.timeoutMs.isLt
        omega)
      rw [if_pos hta, he', hlate]
      have hT : WaitTimedOut s { t with wdElapsed := v' }.enterFailed := ⟨rfl, rfl, rfl, h2.diag⟩
      refine ⟨_, rfl, ⟨hf.1, hf.2, hf.3, hf.4, hf.5, hf.6, hf.7, hf.8, hf.9⟩, .inr hT, ?_, fun _ _ => hT⟩
      rintro ⟨h, _⟩
      rw [hasNewline_iff] at h
      exact absurd (List.mem_append_right _ h) hn

/-- One transition of a session: a sending step. -/
theorem session_send {fuel : Nat} {ps : List WaitPlay} {s t : State} (h : s.state.isSending = true)
    (hc : coreStep s = .next t) : session (fuel + 1) ps s = session fuel ps t := by
  have ha : s.state.isAwaiting = false := by
    revert h
    cases s.state <;> simp [SessionState.isSending, SessionState.isAwaiting, SessionState.wait?]
  simp [session, ha, h, hc]

/-- One transition of a session: a wait. -/
theorem session_wait {fuel : Nat} {ps : List WaitPlay} {s t : State} (h : s.state.isAwaiting = true)
    (hc : playWait (ps.headD { line := [], ticks := 0 }) s = .next t) :
    session (fuel + 1) ps s = session fuel ps.tail t := by
  simp only [session, h, hc, if_true, Result.andThen_next]

/-- A session has ended in `Done` and `Failed`. -/
theorem session_end {fuel : Nat} {ps : List WaitPlay} {s : State} (h : s.state = .done ∨ s.state = .failed) :
    session fuel ps s = .next s := by
  cases fuel with
  | zero => rfl
  | succ n =>
    rcases h with h | h <;>
      simp [session, h, SessionState.isAwaiting, SessionState.wait?, SessionState.isSending]

end Sys2Proof.Machine
end

