-- ==== Sys2Proof/Laws/Transmit.lean ====
section
/-! SUPPORT. The transmit path of the clocked refinement: the Block a sending state sends, the byte the transmit port
offers, the checksum accumulated so far, and what starting and finishing a Block leave (R114). -/

namespace Sys2Proof.Machine

theorem State.sendsBlock_cases {s : State} (h : s.sendsBlock = true) :
    s.state = .sendingStart ∨ (s.state = .sendingData ∧ s.cursor ≠ s.imgLen) ∨ s.state = .sendingTrailer := by
  revert h
  simp only [State.sendsBlock]
  cases hs : s.state <;> simp [SessionState.isSending]

theorem State.not_awaiting_of_sendsBlock {s : State} (h : s.sendsBlock = true) :
    s.state.isAwaiting = false ∧ s.busy = true ∧ s.state ≠ .idle := by
  rcases s.sendsBlock_cases h with h | ⟨h, _⟩ | h <;> simp [h, State.busy] <;> rfl

/-- What the session asks the Framer for. -/
theorem State.framerRequest_cases {s : State} {k : Kind} {p : List Byte} (h : s.framerRequest? = some (k, p)) :
    (s.state = .sendingStart ∧ k = .start ∧ p = be16 s.startAddr) ∨
    (s.state = .sendingData ∧ s.cursor ≠ s.imgLen ∧ k = .data ∧
      s.img.readMany s.cursor (chunkSize s.imgLen s.cursor) = some p) ∨
    (s.state = .sendingTrailer ∧ k = .trailer ∧ p = []) := by
  unfold State.framerRequest? at h
  split at h <;> try cases h
  · exact .inl ⟨‹_›, rfl, rfl⟩
  · split at h
    · cases h
    · obtain ⟨c, hc, he⟩ := Option.map_eq_some_iff.1 h
      cases he
      exact .inr (.inl ⟨‹_›, ‹_›, rfl, hc⟩)
  · exact .inr (.inr ⟨‹_›, rfl, rfl⟩)

/-- The Block a sending state sends is a layout, of a payload its kind allows. -/
theorem State.blockBytes_cases {s : State} {bs : List Byte} (h : s.blockBytes? = some bs) :
    (s.state = .sendingStart ∧ bs = layoutBlock .start (be16 s.startAddr)) ∨
    (s.state = .sendingData ∧ ∃ chunk, s.img.readMany s.cursor (chunkSize s.imgLen s.cursor) = some chunk ∧
      1 ≤ chunk.length ∧ chunk.length ≤ 255 ∧ bs = layoutBlock .data chunk) ∨
    (s.state = .sendingTrailer ∧ bs = layoutBlock .trailer []) := by
  obtain ⟨⟨k, p⟩, hr, hf⟩ := Option.bind_eq_some_iff.1 h
  rcases s.framerRequest_cases hr with ⟨hs, rfl, rfl⟩ | ⟨hs, hne, rfl, hc⟩ | ⟨hs, rfl, rfl⟩
  · cases hf; exact .inl ⟨hs, rfl⟩
  · simp only [frame, frameData] at hf
    split at hf <;> cases hf
    exact .inr (.inl ⟨hs, p, hc, by omega, by omega, rfl⟩)
  · cases hf; exact .inr (.inr ⟨hs, rfl⟩)

/-- The byte at each offset of a Block, row by row of R52. -/
theorem layoutBlock_getElem? (k : Kind) (p : List Byte) (i : Nat) :
    (layoutBlock k p)[i]? =
      if i = 0 then some Config.head
      else if i = 1 then some Config.sync
      else if i = 2 then some k.byte
      else if i = 3 then some (lenByte p.length)
      else if i < 4 + p.length then p[i - 4]?
      else if i = 4 + p.length then some (blockChecksum k p)
      else if i = 5 + p.length then some Config.trail
      else none := by
  match i with
  | 0 => rfl
  | 1 => rfl
  | 2 => rfl
  | 3 => rfl
  | i + 4 =>
    have : (layoutBlock k p)[i+4]? = (p ++ [blockChecksum k p, Config.trail])[i]? := by
      simp [layoutBlock]
    rw [this]
    simp only [Nat.add_sub_cancel]
    rw [if_neg (by omega)]
    by_cases h : i < p.length
    · rw [if_neg (by omega), if_neg (by omega), if_neg (by omega), if_pos (by omega), List.getElem?_append_left h]
    · rw [if_neg (by omega), if_neg (by omega), if_neg (by omega), if_neg (by omega), List.getElem?_append_right (by omega)]
      by_cases h1 : i = p.length
      · rw [if_pos (by omega), h1]; simp
      · rw [if_neg (by omega)]
        by_cases h2 : i = p.length + 1
        · rw [if_pos (by omega), h2]; simp
        · rw [if_neg (by omega), List.getElem?_eq_none (by simp; omega)]

/-- What has been summed after `i` bytes. -/
theorem summedRegion_layoutBlock (k : Kind) (p : List Byte) (i : Nat) :
    summedRegion (layoutBlock k p) i = (k.byte :: lenByte p.length :: p).take (i - 2) := by
  unfold summedRegion
  have h : (layoutBlock k p).take ((layoutBlock k p).length - 2) = Config.head :: Config.sync :: k.byte :: lenByte p.length :: p := by
    rw [layoutBlock_length]
    simp [layoutBlock]
  rw [h]
  match i with
  | 0 => rfl
  | 1 => rfl
  | i + 2 => rfl

/-- With a Block in progress the port offers its next byte, `tx_last` marks the last one, and the accumulator goes on to
the sum that includes it. -/
theorem BlockProgress.offers {s : State} {bs : List Byte} (hb : s.blockBytes? = some bs) (hp : BlockProgress bs s) :
    s.txByte? = bs[s.byteIdx.toNat]? ∧ s.txLast = decide (s.byteIdx.toNat + 1 = bs.length) ∧
      ∀ b, bs[s.byteIdx.toNat]? = some b →
        s.cksAfter b = checksum (summedRegion bs (s.byteIdx.toNat + 1)) := by
  obtain ⟨hi, hsent, hk, hl, hsum⟩ := hp
  have main : ∀ (k : Kind) (p : List Byte), bs = layoutBlock k p → p.length ≤ 255 →
      (s.byteIdx.toNat ≥ 4 → s.byteIdx.toNat < 4 + p.length → s.payloadByte? = p[s.byteIdx.toNat - 4]?) →
      s.txByte? = bs[s.byteIdx.toNat]? ∧ s.txLast = decide (s.byteIdx.toNat + 1 = bs.length) ∧
        ∀ b, bs[s.byteIdx.toNat]? = some b →
          s.cksAfter b = checksum (summedRegion bs (s.byteIdx.toNat + 1)) := by
    intro k p hbs hp255 hpay
    subst hbs
    have hk' : k.byte = s.blkKind := by
      rw [layoutBlock_getElem?] at hk; simpa using hk
    have hl' : s.blkLen = lenByte p.length := by
      apply BitVec.eq_of_toNat_eq
      rw [lenByte_toNat hp255]; rw [layoutBlock_length] at hl; omega
    have hln : s.blkLen.toNat = p.length := by rw [hl', lenByte_toNat hp255]
    refine ⟨?_, ?_, ?_⟩
    · rw [layoutBlock_getElem?]
      simp only [State.txByte?, hln]
      rw [layoutBlock_length] at hi
      split; · rfl
      split; · rfl
      split; · rw [hk']
      split; · rw [hl']
      split
      · exact hpay (by omega) (by assumption)
      split
      · congr 1
        have : s.cksAcc = checksum (k.byte :: lenByte p.length :: p) := by
          rw [hsum, summedRegion_layoutBlock, List.take_of_length_le (by simp; omega)]
        cases k with
        | start => rw [← hk', if_neg (by decide), this]; rfl
        | data => rw [← hk', if_neg (by decide), this]; rfl
        | trailer => rw [← hk', if_pos rfl]; rfl
      · rw [if_pos (by omega)]
    · simp only [State.txLast, layoutBlock_length, hln]
      rw [Bool.eq_iff_iff]; simp; omega
    · intro b hb'
      rw [layoutBlock_getElem?] at hb'
      rw [layoutBlock_length] at hi
      simp only [State.cksAfter, hln]
      rw [summedRegion_layoutBlock] at hsum ⊢
      split
      · rw [show s.byteIdx.toNat + 1 - 2 = 0 by omega]; rfl
      split
      · rename_i h; rw [h]; simp [hk', checksum, checksumFrom]
      split
      · rw [hsum]
        rw [show s.byteIdx.toNat + 1 - 2 = (s.byteIdx.toNat - 2) + 1 by omega]
        rw [List.take_add_one, show (k.byte :: lenByte p.length :: p)[s.byteIdx.toNat - 2]? = some b from ?_]
        · simp only [Option.toList_some]; rw [checksum_concat]
        · rw [if_neg (by omega), if_neg (by omega), if_neg (by omega)] at hb'
          obtain ⟨j, hj⟩ : ∃ j, s.byteIdx.toNat = j + 3 := ⟨s.byteIdx.toNat - 3, by omega⟩
          rw [hj] at hb' ⊢
          cases j with
          | zero => simpa using hb'
          | succ j =>
            rw [if_neg (by omega), if_pos (by omega)] at hb'
            rw [show j + 1 + 3 - 2 = j + 1 + 1 by omega, List.getElem?_cons_succ, List.getElem?_cons_succ]
            rw [show j + 1 + 3 - 4 = j by omega] at hb'
            exact hb'
      · rw [hsum, List.take_of_length_le (by simp; omega), List.take_of_length_le (by simp; omega)]
  rcases s.blockBytes_cases hb with ⟨h, rfl⟩ | ⟨h, c, hc, h1, h2, rfl⟩ | ⟨h, rfl⟩
  · exact main .start _ rfl (by simp) (fun _ _ => by simp [State.payloadByte?, h])
  · refine main .data _ rfl h2 (fun g1 g2 => ?_)
    obtain ⟨q1, q2⟩ := Memory.readMany_spec hc
    have := chunkSize_le_rest s.imgLen s.cursor
    have hx : s.imgAddr < s.imgLen := by simp only [State.imgAddr]; omega
    simp only [State.payloadByte?, h, hx, if_true]
    rw [q2 _ (by omega)]
    simp only [State.imgAddr]
    congr 1; omega
  · exact main .trailer _ rfl (by simp) (fun g1 g2 => by simp at g2; omega)

theorem BlockProgress.idx_succ {s : State} {bs : List Byte} (hp : BlockProgress bs s) :
    (s.byteIdx + 1).toNat = s.byteIdx.toNat + 1 := by
  have := hp.idx; have := hp.len; have := s.blkLen.isLt
  rw [BitVec.toNat_add]; simp; omega

/-- What the session asks the Framer for does not depend on the working registers. -/
@[simp] theorem State.loadBlk_framerRequest (s : State) : s.loadBlk.framerRequest? = s.framerRequest? := by
  simp [State.framerRequest?]

@[simp] theorem State.loadBlk_blockBytes (s : State) : s.loadBlk.blockBytes? = s.blockBytes? := by
  simp [State.blockBytes?]

/-- The transaction level does not see the working registers. -/
@[simp] theorem State.loadBlk_view (s : State) : s.loadBlk.view = s.view := by
  unfold State.loadBlk
  split <;> first | rfl | (split <;> rfl)

/-- The working registers at the start of a Data Block. -/
theorem State.loadBlk_data {s : State} (h : s.state = .sendingData) (hc : s.cursor < s.imgLen) :
    s.loadBlk = { s with
      blkKind := Kind.data.byte, blkLen := lenByte (chunkSize s.imgLen s.cursor), cksAcc := 0, byteIdx := 0 } := by
  simp [State.loadBlk, h, hc]

/-- With no chunk left no Block starts. -/
theorem State.loadBlk_data_end {s : State} (h : s.state = .sendingData) (hc : s.cursor = s.imgLen) : s.loadBlk = s := by
  simp [State.loadBlk, h, hc]

/-- Starting a Block: nothing of it is transferred. -/
theorem State.loadBlk_progress {s : State} (h : s.sendsBlock = true) (hc : s.cursor ≤ s.imgLen)
    (hi : ∀ i < s.imgLen, (s.img.read i).isSome = true) (ht : s.txPart = []) :
    ∃ bs, s.loadBlk.blockBytes? = some bs ∧ BlockProgress bs s.loadBlk := by
  rw [State.loadBlk_blockBytes]
  rcases s.sendsBlock_cases h with h | ⟨h, hne⟩ | h
  · refine ⟨layoutBlock .start (be16 s.startAddr), by
      simp [State.blockBytes?, State.framerRequest?, h, frame_start_be16], ?_⟩
    constructor <;> simp [State.loadBlk, h, ht, lenByte, summedRegion] <;> first | rfl | decide
  · obtain ⟨c, hcr⟩ := Memory.readMany_isSome (m := s.img) (i := s.cursor) (n := chunkSize s.imgLen s.cursor) (by
      intro j hj
      have := chunkSize_le_rest s.imgLen s.cursor
      exact hi _ (by omega))
    have hcl := (Memory.readMany_spec hcr).1
    have h1 := chunkSize_pos (imgLen := s.imgLen) (cursor := s.cursor) (by omega)
    have h2 := chunkSize_le s.imgLen s.cursor
    refine ⟨layoutBlock .data c, ?_, ?_⟩
    · simp [State.blockBytes?, State.framerRequest?, h, hne, hcr]
      exact frame_data_chunk (by omega) (by omega)
    · rw [State.loadBlk_data h (by omega)]
      constructor <;> simp [ht, summedRegion]
      · rfl
      · rw [lenByte_toNat h2, hcl]
  · refine ⟨layoutBlock .trailer [], by
      simp [State.blockBytes?, State.framerRequest?, h, frame_trailer_nil], ?_⟩
    constructor <;> simp [State.loadBlk, h, ht, summedRegion]; rfl

/-- Finishing a Block: with the last byte the write in progress is the whole Block. -/
theorem BlockProgress.complete {s : State} {bs : List Byte} {b : Byte} (h1 : s.blockBytes? = some bs)
    (h2 : BlockProgress bs s) (hb : s.txByte? = some b) (hl : s.txLast = true) : s.txPart ++ [b] = bs := by
  obtain ⟨g1, g2, g3⟩ := BlockProgress.offers h1 h2
  rw [hl] at g2
  have hne : s.byteIdx.toNat + 1 = bs.length := by simpa using g2.symm
  rw [g1] at hb
  have := List.take_add_one (l := bs) (i := s.byteIdx.toNat)
  rw [hb, ← h2.sent, List.take_of_length_le (by omega)] at this
  exact this.symm

end Sys2Proof.Machine
end

