-- ==== Sys2Proof/Tests/Slice0.lean ====
section
/-! SUPPORT. The model's own tests: ill-formed terms that `wellFormed` refuses, words written out from the spec's
encodings, small steps with results from spec/95_test_vectors.md, and a witness for every statement with hypotheses. -/

namespace Sys2Proof.Tests

open Sys2Proof Sys2Proof.Machine

/-! ### Small states -/

/-- After reset, with an open Link. -/
def ready : State := { State.reset with linkOpen := true }

/-- A run over the three bytes of V-L1-1 with timeout 2000, in a given state. -/
def run (st : SessionState) : State :=
  { ready with
    state := st, startAddr := 0x1234, timeoutMs := 2000, imgLen := 3, img := Memory.ofBytes [0x10, 0x20, 0x30] }

/-- `AwaitingDataAck` with the registers of a row of L2.6. -/
def waiting (timeoutMs wdElapsed : Word16) (rxbuf rxq : List Byte) : State :=
  { run .awaitingDataAck with timeoutMs := timeoutMs, wdElapsed := wdElapsed, rxbuf := rxbuf, rxq := rxq }

/-- A cycle of the stand-alone Framer in which its byte is taken. -/
def framerTakes : FramerIn := { rst := false, request := none, txReady := true }

/-- A cycle of the stand-alone Framer with a request. -/
def framerAsks (kind : Kind) (payload : List Byte) : FramerIn :=
  { rst := false, request := some (kind, payload), txReady := false }

/-! ### Ill-formed operations are refused by `wellFormed` -/

theorem test_start_of_one_byte_ill_formed : (Instr.frameStart [0x12]).wellFormed = false := by decide
theorem test_empty_data_ill_formed : (Instr.frameData []).wellFormed = false := by decide
set_option maxRecDepth 20000 in
theorem test_data_of_256_ill_formed : (Instr.frameData (List.replicate 256 0)).wellFormed = false := by decide
theorem test_trailer_with_payload_ill_formed : (Instr.frameTrailer [0x00]).wellFormed = false := by decide
theorem test_invalid_with_legal_length_ill_formed :
    (Instr.frameInvalid .start [0x12, 0x34]).wellFormed = false := by decide
set_option maxRecDepth 20000 in
theorem test_invalid_beyond_the_port_ill_formed :
    (Instr.frameInvalid .data (List.replicate 512 0)).wellFormed = false := by decide
theorem test_read_of_nothing_ill_formed : (Instr.linkRead 0).wellFormed = false := by decide
theorem test_memory_read_of_nothing_ill_formed : (Instr.memRead 0 0).wellFormed = false := by decide
theorem test_memory_read_of_256_ill_formed : (Instr.memRead 0 256).wellFormed = false := by decide
theorem test_line_without_newline_ill_formed : (Instr.ackLine [0x4F, 0x4B]).wellFormed = false := by decide
theorem test_line_after_newline_ill_formed : (Instr.ackLine [0x0A, 0x4F]).wellFormed = false := by decide

/-- `isBlock`, check by check: too short, head, sync, total, trailer byte, kind, length for the kind, checksum. -/
theorem test_not_blocks_ill_formed :
    [[0x55, 0x3C, 0xFF, 0x00, 0x00], [0x54, 0x3C, 0xFF, 0x00, 0x00, 0x55], [0x55, 0x3D, 0xFF, 0x00, 0x00, 0x55],
      [0x55, 0x3C, 0xFF, 0x00, 0x00, 0x00, 0x55], [0x55, 0x3C, 0xFF, 0x00, 0x00, 0x54],
      [0x55, 0x3C, 0x02, 0x00, 0x02, 0x55], [0x55, 0x3C, 0x00, 0x01, 0x12, 0x13, 0x55],
      [0x55, 0x3C, 0x01, 0x00, 0x01, 0x55], [0x55, 0x3C, 0xFF, 0x01, 0x00, 0x00, 0x55],
      [0x55, 0x3C, 0x01, 0x03, 0x10, 0x20, 0x30, 0x63, 0x55], [0x55, 0x3C, 0xFF, 0x00, 0xFF, 0x55]].map
      (fun bs : List Byte => (Instr.linkWrite bs).wellFormed) = List.replicate 11 false := by decide

theorem test_block_well_formed :
    (Instr.linkWrite [0x55, 0x3C, 0x01, 0x03, 0x10, 0x20, 0x30, 0x64, 0x55]).wellFormed = true := by decide

/-! ### Decoding words written out from R52 and L2.2 to L2.4 -/

theorem test_decode_start : decode [0x55, 0x3C, 0x00, 0x02, 0x00, 0xFF, 0x01, 0x55] = .ok (.frameStart [0x00, 0xFF]) := by
  rfl
theorem test_decode_start_sentinels :
    decode [0x55, 0x3C, 0x00, 0x02, 0x55, 0x3C, 0x93, 0x55] = .ok (.frameStart [0x55, 0x3C]) := by rfl
theorem test_decode_data : decode [0x55, 0x3C, 0x01, 0x01, 0xFF, 0x01, 0x55] = .ok (.frameData [0xFF]) := by rfl
set_option maxRecDepth 20000 in
theorem test_decode_data_full :
    decode ([0x55, 0x3C, 0x01, 0xFF] ++ List.replicate 255 0x5A ++ [0xA6, 0x55]) =
      .ok (.frameData (List.replicate 255 0x5A)) := by rfl
theorem test_decode_trailer : decode [0x55, 0x3C, 0xFF, 0x00, 0x00, 0x55] = .ok (.frameTrailer []) := by rfl
/-- `FRAME.INVALID` has no Block; its request does: START with one byte. -/
theorem test_decode_invalid : decode [0x55, 0x3C, 0x00, 0x01, 0x12] = .ok (.frameInvalid .start [0x12]) := by rfl
theorem test_encode_data :
    encode (.frameData [0x01, 0x02, 0x03, 0x04, 0x05]) =
      some [0x55, 0x3C, 0x01, 0x05, 0x01, 0x02, 0x03, 0x04, 0x05, 0x15, 0x55] := by rfl

/-- The match words of the opcode table; the DATA word with length 1, since length 0 is illegal (R61). -/
theorem test_table_start : decodeTableWord 32 0x553C0002 = some (.frameStart [0x00, 0x00]) := by rfl
theorem test_table_data : decodeTableWord 32 0x553C0101 = some (.frameData [0x00]) := by rfl
theorem test_table_trailer : decodeTableWord 32 0x553CFF00 = some (.frameTrailer []) := by rfl
theorem test_table_data_empty : decodeTableWord 32 0x553C0100 = some (.frameInvalid .data []) := by rfl

/-! ### One step each, results from the vectors -/

/-- L2.4, as the first step after reset. -/
theorem test_first_step_runs_the_word :
    step (State.reset.withFetchWord 32 0x553CFF00) =
      .next { State.reset with answer := .block [0x55, 0x3C, 0xFF, 0x00, 0x00, 0x55] } := by rfl
theorem test_frame_start :
    exec (.frameStart [0xC1, 0x00]) ready =
      .next { ready with answer := .block [0x55, 0x3C, 0x00, 0x02, 0xC1, 0x00, 0xC3, 0x55] } := by rfl
set_option maxRecDepth 20000 in
theorem test_frame_data_zero_checksum :
    exec (.frameData (List.replicate 45 0x5A)) ready =
      .next { ready with
        answer := .block ([0x55, 0x3C, 0x01, 0x2D] ++ List.replicate 45 0x5A ++ [0x00, 0x55]) } := by rfl
theorem test_frame_trailer :
    exec (.frameTrailer []) ready = .next { ready with answer := .block [0x55, 0x3C, 0xFF, 0x00, 0x00, 0x55] } := by rfl
theorem test_frame_invalid :
    exec (.frameInvalid .trailer [0x00]) ready = .next { ready with answer := .invalidPayloadSize } := by rfl
/-- L2.1: `FF 01` wraps to zero; `12 34 56` gives 9C. -/
theorem test_checksum_wraps : exec (.checksum [0xFF, 0x01]) ready = .next { ready with answer := .byte 0x00 } := by rfl
theorem test_checksum : exec (.checksum [0x12, 0x34, 0x56]) ready = .next { ready with answer := .byte 0x9C } := by rfl
theorem test_seg_next :
    exec .segNext (run .sendingData) =
      .next { run .sendingData with answer := .chunk (some [0x10, 0x20, 0x30]) } := by rfl
theorem test_seg_next_end : exec .segNext ready = .next { ready with answer := .chunk none } := by rfl
theorem test_mem_read :
    exec (.memRead 1 2) (run .idle) = .next { run .idle with answer := .bytes [0x20, 0x30] } := by rfl
/-- L2.7. -/
theorem test_start :
    exec (.hostStart 0x1234 2 2000) ready =
      .next { ready with state := .sendingStart, startAddr := 0x1234, imgLen := 2, timeoutMs := 2000 } := by rfl
theorem test_start_ignored : exec (.hostStart 0x1234 2 2000) State.reset = .next State.reset := by rfl
theorem test_reset_keeps_the_link_closed :
    ∃ t, exec .hostReset { run .failed with err := .noAcknowledgment, linkOpen := false, cursor := 3 } = .next t ∧
      t.state = .idle ∧ t.err = .none ∧ t.cursor = 0 ∧ t.linkOpen = false := ⟨_, rfl, rfl, rfl, rfl, rfl⟩
theorem test_send_start :
    ∃ t, exec .sessionSendStart (run .sendingStart) = .next t ∧ t.state = .awaitingStartAck ∧
      t.txlog = [[0x55, 0x3C, 0x00, 0x02, 0x12, 0x34, 0x48, 0x55]] := ⟨_, rfl, rfl, rfl⟩
/-- V-L1-3 corrected. -/
theorem test_send_data :
    ∃ t, exec .sessionSendData (run .sendingData) = .next t ∧ t.state = .awaitingDataAck ∧ t.cursor = 3 ∧
      t.txlog = [[0x55, 0x3C, 0x01, 0x03, 0x10, 0x20, 0x30, 0x64, 0x55]] := ⟨_, rfl, rfl, rfl, rfl⟩
theorem test_no_data :
    exec .sessionNoData { run .sendingData with cursor := 3 } = .next { run .sendingTrailer with cursor := 3 } := by rfl
theorem test_send_trailer :
    ∃ t, exec .sessionSendTrailer (run .sendingTrailer) = .next t ∧ t.state = .awaitingTrailerAck ∧
      t.txlog = [[0x55, 0x3C, 0xFF, 0x00, 0x00, 0x55]] := ⟨_, rfl, rfl, rfl⟩
theorem test_ack_next :
    exec .sessionAckNext (run .awaitingTrailerAck) =
      .next { run .awaitingTrailerAck with answer := .session .done } := by rfl
theorem test_idle_done_failed_wait :
    exec .sessionIdle (run .idle) = .next (run .idle) ∧ exec .sessionDone (run .done) = .next (run .done) ∧
      exec .sessionFailed (run .failed) = .next (run .failed) := ⟨rfl, rfl, rfl⟩
theorem test_enter :
    exec (.awaitEnter .trailerAck) { run .sendingTrailer with wdElapsed := 7, rxbuf := [0x2B] } =
      .next (run .awaitingTrailerAck) := by rfl
/-- L2.6, row 4: 1999 < 2000. -/
theorem test_poll_in_time :
    exec .awaitPoll (waiting 2000 1999 [] [0x0A]) =
      .next { waiting 2000 1999 [] [] with state := .sendingData, diag := [[0x0A]] } := by rfl
/-- L2.6, row 5: the timeout wins and the byte stays unread. -/
theorem test_poll_timeout_wins :
    exec .awaitPoll (waiting 2000 2000 [] [0x0A]) =
      .next { waiting 2000 2000 [] [0x0A] with state := .failed, err := .noAcknowledgment, linkOpen := false } := by rfl
/-- L2.6, row 10: a carriage return ends no line. -/
theorem test_poll_carriage_return :
    exec .awaitPoll (waiting 2000 3 [] [0x0D]) = .next (waiting 2000 3 [0x0D] []) := by rfl
theorem test_ack_path :
    exec .awaitAck (waiting 2000 3 [0x0A, 0x3E] []) =
      .next { waiting 2000 3 [] [] with state := .sendingData, diag := [[0x0A, 0x3E]] } := by rfl
theorem test_timeout_path :
    exec .awaitTimeout (waiting 2000 2000 [0x4F, 0x4B] []) =
      .next { waiting 2000 2000 [] [] with state := .failed, err := .noAcknowledgment, linkOpen := false } := by rfl
theorem test_tick : exec .tick (waiting 2000 1999 [] []) = .next (waiting 2000 2000 [] []) := by rfl
theorem test_tick_saturates : exec .tick (waiting 2000 65535 [] []) = .next (waiting 2000 65535 [] []) := by rfl
theorem test_link_open :
    exec (.linkOpen "port" 115200 (.opened [0x0A])) State.reset =
      .next { ready with linkDevice := "port", linkBaud := 115200, rxq := [0x0A] } := by rfl
/-- R105's worked example: one entry of 6 bytes, and `count_written` = `len(bs)`. -/
theorem test_link_write :
    exec (.linkWrite [0x55, 0x3C, 0xFF, 0x00, 0x00, 0x55]) ready =
      .next { ready with
        txlog := [[0x55, 0x3C, 0xFF, 0x00, 0x00, 0x55]], wire := [0x55, 0x3C, 0xFF, 0x00, 0x00, 0x55],
        answer := .count 6 } := by rfl
/-- R111: the host closes the Link after `Done`, in no other state. -/
theorem test_host_closes_after_done :
    execEnv .closeLink (run .done) = .next { run .done with linkOpen := false } ∧
      execEnv .closeLink ready = .refused .hostDutyBroken ∧
      execEnv .closeLink (run .failed) = .refused .hostDutyBroken := ⟨rfl, rfl, rfl⟩
theorem test_link_read_takes_the_oldest :
    exec (.linkRead 2) { ready with rxq := [0x4F, 0x4B, 0x0A] } =
      .next { ready with rxq := [0x0A], answer := .bytes [0x4F, 0x4B] } := by rfl
theorem test_remote_enqueue :
    exec (.remoteEnqueue 0x0A) { ready with rxq := [0x4F] } = .next { ready with rxq := [0x4F, 0x0A] } := by rfl
theorem test_ack_line :
    exec (.ackLine [0x4F, 0x4B, 0x0A]) ready = .next { ready with answer := .line (some [0x4F, 0x4B]) } := by rfl
/-- R69: with no chunk left no Block starts; the working registers keep what they held. -/
theorem test_no_block_without_a_chunk :
    { run .sendingData with cursor := 3, blkLen := 0x2D }.loadBlk = { run .sendingData with cursor := 3, blkLen := 0x2D } := by
  decide
/-- R118 with L2.4: the request, six bytes, idle again; and an illegal request, one cycle of `fr_invalid`. -/
theorem test_framer_ports :
    FramerUnit.transfers (List.replicate 7 framerTakes) (FramerUnit.idle.cycle (framerAsks .trailer [])) =
      [(0x55, false), (0x3C, false), (0xFF, false), (0x00, false), (0x00, false), (0x55, true)] ∧
    (FramerUnit.idle.cycle (framerAsks .start [0x12])).ports framerTakes = { tx := none, frInvalid := true } := by decide
/-- P1: three writes, 23 bytes, `Done`. -/
theorem test_upload_p1 :
    ∃ t, exec (.upload 0x0000 2000 [0x10, 0x20, 0x30]
        [⟨[0x4F, 0x4B, 0x0A], 5⟩, ⟨[0x0A], 3⟩, ⟨[0x44, 0x6F, 0x6E, 0x65, 0x0D, 0x0A], 0⟩]) ready = .next t ∧
      t.state = .done ∧ t.cursor = 3 ∧ t.wire.length = 23 ∧
      t.txlog = [[0x55, 0x3C, 0x00, 0x02, 0x00, 0x00, 0x02, 0x55],
        [0x55, 0x3C, 0x01, 0x03, 0x10, 0x20, 0x30, 0x64, 0x55], [0x55, 0x3C, 0xFF, 0x00, 0x00, 0x55]] ∧
      t.diag = [[0x4F, 0x4B, 0x0A], [0x0A], [0x44, 0x6F, 0x6E, 0x65, 0x0D, 0x0A]] :=
  ⟨_, rfl, rfl, rfl, rfl, rfl, rfl⟩
/-- P4: the line without its newline, then silence: one write, `Failed`. -/
theorem test_upload_p4 :
    ∃ t, exec (.upload 0x1234 3 [0xAA, 0xBB] [⟨[0x4F, 0x4B], 2⟩]) ready = .next t ∧ t.state = .failed ∧
      t.err = .noAcknowledgment ∧ t.cursor = 0 ∧ t.rxbuf = [] ∧ t.diag = [] ∧
      t.txlog = [[0x55, 0x3C, 0x00, 0x02, 0x12, 0x34, 0x48, 0x55]] := ⟨_, rfl, rfl, rfl, rfl, rfl, rfl, rfl⟩

/-! ### Witnesses: for each statement with hypotheses, states and operands that meet all of them, clause by clause -/

theorem wit_DecodeOfEncode :
    (Instr.frameStart [0x12, 0x34]).wellFormed = true ∧
      encode (.frameStart [0x12, 0x34]) = some [0x55, 0x3C, 0x00, 0x02, 0x12, 0x34, 0x48, 0x55] := by decide

theorem wit_DecodeOfEncode_invalid :
    (Instr.frameInvalid .trailer [0x07]).wellFormed = true ∧
      encode (.frameInvalid .trailer [0x07]) = some [0x55, 0x3C, 0xFF, 0x01, 0x07] := by decide

theorem wit_WellFormedBlocksAreFrames :
    frame .data [0x00] = some [0x55, 0x3C, 0x01, 0x01, 0x00, 0x02, 0x55] ∧
      isBlock [0x55, 0x3C, 0x01, 0x01, 0x00, 0x02, 0x55] = true := by decide

theorem wit_ReservedKindsAreRefused :
    2 ≤ (0x02 : Byte).toNat ∧ (0x02 : Byte).toNat ≤ 0xFE ∧ 2 ≤ (0xFE : Byte).toNat ∧ (0xFE : Byte).toNat ≤ 0xFE := by
  decide

theorem wit_ChecksumLaws : [0x01, 0x02, 0x03].Perm [0x03, 0x02, (0x01 : Byte)] ∧ (0x01 : Byte) ≠ 0 := by decide

theorem wit_FrameStartAnswers : ([0x12] : List Byte).length ≠ 2 ∧ ([0x12, 0x34, 0x56] : List Byte).length ≠ 2 := by decide

set_option maxRecDepth 20000 in
theorem wit_FrameDataAnswers :
    (1 ≤ ([0x00] : List Byte).length ∧ ([0x00] : List Byte).length ≤ 255) ∧
      (1 ≤ (List.replicate 255 (0xFF : Byte)).length ∧ (List.replicate 255 (0xFF : Byte)).length ≤ 255) ∧
      (([] : List Byte).length = 0 ∨ 255 < ([] : List Byte).length) ∧
      ((List.replicate 256 (0xFF : Byte)).length = 0 ∨ 255 < (List.replicate 256 (0xFF : Byte)).length) := by decide

theorem wit_FrameTrailerAnswers : ([0x00] : List Byte) ≠ [] := by decide

theorem wit_FrameInvalidAnswers :
    (Instr.frameInvalid .start []).wellFormed = true ∧ (Instr.frameInvalid .data []).wellFormed = true ∧
      (Instr.frameInvalid .trailer [0x00]).wellFormed = true ∧
      (framerAsks .data []).rst = false ∧ framerTakes.rst = false ∧ (framerAsks .data []).request = some (.data, []) ∧
      framerTakes.request = none := by decide

theorem wit_MemReadAnswers :
    (1 ≤ 3 ∧ 0 + 3 ≤ (run .idle).imgLen ∧ ∀ j < 3, ((run .idle).img.read (0 + j)).isSome = true) ∧
      ((1 : Nat) = 0 ∨ (run .idle).imgLen < 3 + 1) := by decide

theorem wit_SegNextAnswers :
    { run .sendingData with cursor := 3 }.cursor = (run .sendingData).imgLen ∧
      (run .sendingData).cursor < (run .sendingData).imgLen ∧
      ∀ i < (run .sendingData).imgLen, ((run .sendingData).img.read i).isSome = true := by decide

theorem wit_ChunksRebuildTheImage :
    (run .sendingData).img = Memory.ofBytes [0x10, 0x20, 0x30] ∧ (run .sendingData).imgLen = 3 ∧
      (run .sendingData).cursor = 0 := by decide

theorem wit_ChunksRebuildTheImage_chunk :
    [0x10, 0x20, 0x30] ∈ chunksFrom 4 (run .sendingData) ∧
      (chunksFrom 4 (run .sendingData))[0]? = some [0x10, 0x20, 0x30] := by decide

theorem wit_ImageIsNeverWritten :
    (∀ a v image waits, Instr.tick ≠ .upload a v image waits) ∧
      exec .tick (run .awaitingDataAck) = .next { run .awaitingDataAck with wdElapsed := 1 } := ⟨by simp, rfl⟩

theorem wit_LinkWriteAppends : ready.linkOpen = true := rfl

theorem wit_LinkProbeAndRead :
    ({ ready with rxq := [0x4F, 0x0A] }.linkOpen = true ∧ 1 ≤ 2 ∧ 2 ≤ { ready with rxq := [0x4F, 0x0A] }.rxq.length) ∧
      (ready.linkOpen = true ∧ ((0 : Nat) = 0 ∨ ready.rxq.length < 0)) ∧
      (ready.linkOpen = true ∧ ((1 : Nat) = 0 ∨ ready.rxq.length < 1)) := by decide

theorem wit_LinkCloseAndEnqueue : (run .done).linkOpen = true := rfl

theorem wit_ClosedLinkIsRefused :
    State.reset.linkOpen = false ∧
      { run .sendingStart with linkOpen := false }.state = .sendingStart ∧
      { run .sendingTrailer with linkOpen := false }.state = .sendingTrailer ∧
      ({ run .sendingData with linkOpen := false }.state = .sendingData ∧
        (run .sendingData).cursor < (run .sendingData).imgLen ∧
        ∀ i < (run .sendingData).imgLen, ((run .sendingData).img.read i).isSome = true) ∧
      { run .awaitingDataAck with linkOpen := false }.state.isAwaiting = true := by decide

theorem wit_AckLineDecodes : (0x0A : Byte) ∉ [0x4F, 0x4B] ∧ (0x0A : Byte) ∉ [] := by decide

theorem wit_StartCommand :
    (ready.state = .idle ∧ ready.linkOpen = true) ∧ (State.reset.state ≠ .idle ∨ State.reset.linkOpen = false) ∧
      ((run .done).state ≠ .idle ∨ (run .done).linkOpen = false) := by decide

theorem wit_WaitingAndTerminalStatesDoNothing :
    (run .idle).state = .idle ∧ (run .done).state = .done ∧ (run .failed).state = .failed := ⟨rfl, rfl, rfl⟩

theorem wit_SendStartWritesTheStartBlock :
    (run .sendingStart).state = .sendingStart ∧ (run .sendingStart).linkOpen = true := ⟨rfl, rfl⟩

theorem wit_SendDataWritesTheChunk :
    (run .sendingData).state = .sendingData ∧ (run .sendingData).cursor < (run .sendingData).imgLen ∧
      (run .sendingData).linkOpen = true ∧
      ∀ i < (run .sendingData).imgLen, ((run .sendingData).img.read i).isSome = true := by decide

theorem wit_NoDataGoesToTheTrailer :
    { run .sendingData with cursor := 3 }.state = .sendingData ∧
      { run .sendingData with cursor := 3 }.cursor = { run .sendingData with cursor := 3 }.imgLen := ⟨rfl, rfl⟩

theorem wit_SendTrailerWritesTheTrailer :
    (run .sendingTrailer).state = .sendingTrailer ∧ (run .sendingTrailer).linkOpen = true := ⟨rfl, rfl⟩

theorem wit_AckNextTable :
    (run .awaitingStartAck).state = .awaitingStartAck ∧ (run .awaitingDataAck).state = .awaitingDataAck ∧
      (run .awaitingTrailerAck).state = .awaitingTrailerAck := ⟨rfl, rfl, rfl⟩

theorem wit_EnterAwaitClears :
    (run .sendingStart).state = .sendingStart ∧ (run .sendingData).state = .sendingData ∧
      (run .sendingTrailer).state = .sendingTrailer := ⟨rfl, rfl, rfl⟩

/-- One state for each clause, at the boundary `wd_elapsed` = `timeout_ms` and one tick before it. -/
theorem wit_PollStep :
    (waiting 2000 2000 [] [0x0A]).state = Wait.dataAck.session ∧ (waiting 2000 2000 [] [0x0A]).linkOpen = true ∧
      (2000 : Word16).toNat ≤ (2000 : Word16).toNat ∧ (1999 : Word16).toNat < (2000 : Word16).toNat ∧
      (waiting 2000 1999 [] []).rxq = [] ∧
      ((waiting 2000 1999 [] [0x4F]).rxq ≠ [] ∧ 0x0A ∉ (waiting 2000 1999 [] [0x4F]).rxbuf ++ [0x4F]) ∧
      ((waiting 2000 1999 [0x4F] [0x0A]).rxq ≠ [] ∧ 0x0A ∈ (waiting 2000 1999 [0x4F] [0x0A]).rxbuf ++ [0x0A]) := by decide

theorem wit_AcknowledgmentPath : (run .awaitingTrailerAck).state = Wait.trailerAck.session := rfl

theorem wit_FailureTransition :
    (run .awaitingStartAck).state.isAwaiting = true ∧ (run .awaitingStartAck).linkOpen = true := ⟨rfl, rfl⟩

theorem wit_TickCountsInTheWaits :
    (waiting 2000 65535 [] []).state.isAwaiting = true ∧ (run .sendingData).state.isAwaiting = false := ⟨rfl, rfl⟩

theorem wit_NotEnabledElsewhere :
    (run .sendingData).state ≠ .idle ∧ (run .idle).state ≠ .done ∧ (run .idle).state ≠ .failed ∧
      (run .idle).state ≠ Wait.startAck.sender ∧ (run .idle).state ≠ .sendingStart ∧
      ((run .idle).state ≠ .sendingData ∨ (run .idle).imgLen ≤ (run .idle).cursor) ∧
      ((run .sendingData).state ≠ .sendingData ∨ (run .sendingData).cursor ≠ (run .sendingData).imgLen) ∧
      (run .idle).state ≠ .sendingTrailer ∧ (run .idle).state.isAwaiting = false := by decide

theorem wit_PollSeesOnlyTheNewline :
    hasNewline [0x41] = hasNewline (waiting 2000 3 [0x4F, 0x4B] [0x0A]).rxbuf ∧
      exec .awaitPoll (waiting 2000 3 [0x4F, 0x4B] [0x0A]) =
        .next { waiting 2000 3 [] [] with state := .sendingData, diag := [[0x4F, 0x4B, 0x0A]] } := ⟨rfl, rfl⟩

theorem wit_TimeoutIsNeverEarly :
    (waiting 1 0 [] []).state.isAwaiting = true ∧ (waiting 1 0 [] []).wdElapsed = 0 ∧
      Event.reset ∉ [Event.tick, Event.core] ∧
      eventsOf [.tick, .core] (waiting 1 0 [] []) =
        .next { waiting 1 1 [] [] with state := .failed, err := .noAcknowledgment, linkOpen := false } :=
  ⟨rfl, rfl, by decide, rfl⟩

/-- A byte without `NL` arrives between two ticks, and an ignored start command. -/
theorem wit_TimeoutComesWithinOnePollInterval :
    (waiting 3 0 [] [0x4F]).state.isAwaiting = true ∧ (waiting 3 0 [] [0x4F]).linkOpen = true ∧
      (waiting 3 0 [] [0x4F]).wdElapsed = 0 ∧ 0x0A ∉ (waiting 3 0 [] [0x4F]).rxbuf ++ (waiting 3 0 [] [0x4F]).rxq ∧
      [[Event.tick, .env (.rx 0x4B), .tick], [.start 0 0 0, .tick]] ≠ [] ∧
      (∀ es ∈ [[Event.tick, .env (.rx 0x4B), .tick], [.start 0 0 0, .tick]],
        es.all Event.isQuiet = true ∧ es.count .tick ≤ 2) ∧
      (waiting 3 0 [] [0x4F]).timeoutMs.toNat ≤
        [[Event.tick, .env (.rx 0x4B), .tick], [.start 0 0 0, .tick]].flatten.count .tick := by
  decide

theorem wit_TransitionsFollowTheTable :
    (∀ a v image waits, Instr.sessionNoData ≠ .upload a v image waits) ∧
      exec .sessionNoData { run .sendingData with cursor := 3 } = .next { run .sendingTrailer with cursor := 3 } :=
  ⟨by simp, rfl⟩

theorem wit_RegistersHaveTheirWriters :
    Instr.tick ≠ .hostReset ∧ (∀ a v image waits, Instr.tick ≠ .upload a v image waits) ∧
      exec .tick (waiting 2000 1999 [] []) = .next (waiting 2000 2000 [] []) ∧
      (∀ a n v, Instr.tick ≠ .hostStart a n v) ∧ Instr.tick ≠ .sessionSendData ∧ Instr.tick ≠ .sessionNoData ∧
      Instr.tick ≠ .awaitPoll ∧
      Instr.tick ≠ .awaitTimeout ∧ Instr.tick ≠ .sessionSendStart ∧ Instr.tick ≠ .sessionSendTrailer ∧
      (∀ w, Instr.tick ≠ .awaitEnter w) ∧ Instr.tick ≠ .awaitAck ∧ Instr.linkClose ≠ .tick := by
  refine ⟨?_, ?_, rfl, ?_⟩ <;> simp

theorem wit_FunctionsOnlyAnswer :
    isFunction (.checksum [0xFF]) = true ∧ exec (.checksum [0xFF]) ready = .next { ready with answer := .byte 0xFF } :=
  ⟨rfl, rfl⟩

theorem wit_TerminalStatesAreLeftByResetOnly :
    ((run .done).state = .done ∨ (run .done).state = .failed) ∧ Event.tick ≠ .reset ∧
      execEvent .tick (run .done) = .next (run .done) := ⟨.inl rfl, by simp, rfl⟩

theorem wit_StepRunsTheDecodedOperation :
    { ready with schedule := .steps [.framerWord [0x55, 0x3C, 0xFF, 0x00]] }.schedule =
        .steps (.framerWord [0x55, 0x3C, 0xFF, 0x00] :: []) ∧
      decode [0x55, 0x3C, 0xFF, 0x00] = .ok (.frameTrailer []) ∧
      ready.schedule = .steps [] ∧ decodeTableWord 32 0x553CFF00 = some (.frameTrailer []) ∧
      { ready with schedule := .cycles [] }.schedule = .cycles [] ∧ decode [0x55] = .error .tooShort :=
  ⟨rfl, rfl, rfl, rfl, rfl, rfl⟩

theorem wit_StepRunsTheScheduledAgent :
    { ready with schedule := .steps [.core] }.schedule = .steps (.core :: []) ∧
      { ready with schedule := .steps [.tick] }.schedule = .steps (.tick :: []) ∧
      { ready with schedule := .steps [.start 0 0 0] }.schedule = .steps (.start 0 0 0 :: []) ∧
      { ready with schedule := .steps [.reset] }.schedule = .steps (.reset :: []) ∧
      { ready with schedule := .steps [.framerRequest .data []] }.schedule = .steps (.framerRequest .data [] :: []) ∧
      { ready with schedule := .steps [.env .closeLink] }.schedule = .steps (.env .closeLink :: []) ∧
      ready.schedule = .steps [] ∧
      { ready with schedule := .cycles [.clk ClockIn.quiet] }.schedule = .cycles (.clk ClockIn.quiet :: []) ∧
      { ready with schedule := .cycles [.env (.rx 0x0A)] }.schedule = .cycles (.env (.rx 0x0A) :: []) ∧
      { ready with schedule := .cycles [.framer framerTakes] }.schedule = .cycles (.framer framerTakes :: []) ∧
      { ready with schedule := .cycles [] }.schedule = .cycles [] :=
  ⟨rfl, rfl, rfl, rfl, rfl, rfl, rfl, rfl, rfl, rfl, rfl⟩

/-- A busy state of the invariant: `SendingData` with the whole Image still to send. -/
theorem wit_Inv_sendingData : Inv (run .sendingData) where
  cursor_le := by decide
  err_iff := by decide
  err_kind := by decide
  link_open := by decide
  rxbuf_empty := by decide
  cursor_zero := by decide
  cursor_end := by decide
  image_wf := by decide
  no_drain := by decide
  clocked := by intro h; cases h

theorem wit_CoreStepIsEnabled :
    Inv (run .sendingData) ∧
      ((run .sendingData).busy = true → ∀ i < (run .sendingData).imgLen, ((run .sendingData).img.read i).isSome = true) :=
  ⟨wit_Inv_sendingData, by decide⟩

theorem wit_EveryStepKeepsTheInvariant :
    Inv (run .sendingData) ∧ ∃ t, step (run .sendingData) = .next t ∧ t.cursor = 3 :=
  ⟨wit_Inv_sendingData, _, rfl, rfl⟩

theorem wit_StartBeginsAHistory :
    { ready with img := Memory.ofBytes [0x10] }.state = .idle ∧ { ready with img := Memory.ofBytes [0x10] }.linkOpen = true ∧
      { ready with img := Memory.ofBytes [0x10] }.img = Memory.ofBytes [0x10] := ⟨rfl, rfl, rfl⟩

/-- A history in the middle of a run: the Start Address Block is acknowledged, the Image is still to send. -/
theorem wit_EveryEventKeepsTheHistory :
    RunHistory 0x1234 [0x10, 0x20, 0x30] [] 0
        { run .sendingData with
          txlog := [[0x55, 0x3C, 0x00, 0x02, 0x12, 0x34, 0x48, 0x55]], diag := [[0x0A]] } ∧ Event.core ≠ .reset := by
  refine ⟨⟨rfl, rfl, fun _ => rfl, fun _ => rfl, 1, ⟨0, by decide, by decide, rfl⟩, rfl, rfl⟩, by simp⟩

theorem wit_EveryEventKeepsTheHistory_step :
    ∃ t, execEvent .core { run .sendingData with diag := [[0x0A]] } = .next t ∧ t.state = .awaitingDataAck :=
  ⟨_, rfl, rfl⟩

theorem wit_UploadSendsTheWholeImage :
    ready.state = .idle ∧ ready.linkOpen = true ∧ chunkCount 3 + 2 ≤ (List.replicate 3 (WaitPlay.mk [0x0A] 1999)).length ∧
      ∀ p ∈ (List.replicate 3 (WaitPlay.mk [0x0A] 1999)).take (chunkCount 3 + 2), p.acknowledges 2000 :=
  ⟨rfl, rfl, by decide, by simp [WaitPlay.acknowledges]; decide⟩

theorem wit_UploadAlwaysEnds :
    (ready.state = .idle ∧ ready.linkOpen = true) ∧ (State.reset.state ≠ .idle ∨ State.reset.linkOpen = false) := by
  decide

theorem wit_UploadWithoutAcknowledgmentFails :
    ready.state = .idle ∧ ready.linkOpen = true ∧ 0x0A ∉ ready.rxq ∧
      ∀ p ∈ [WaitPlay.mk [0x4F, 0x4B] 1], 0x0A ∉ p.line := by decide

theorem wit_ResetWinsTheCycle :
    { ClockIn.quiet with rst := true, start := true }.rst = true ∧ (run .done).state = .done ∧
      (run .failed).state = .failed ∧ { run .failed with err := .noAcknowledgment }.err = .noAcknowledgment := by decide

/-- The Data Block of the run at the clocked level, `i` bytes of it transferred. -/
def sending (i : Nat) (acc : Byte) : State :=
  { run .sendingData with
    blkKind := 0x01, blkLen := 0x03, byteIdx := BitVec.ofNat 9 i, cksAcc := acc
    txPart := ([0x55, 0x3C, 0x01, 0x03, 0x10, 0x20, 0x30, 0x64, 0x55] : List Byte).take i }

/-- The clocked invariant with four bytes transferred: the accumulator holds kind plus length. -/
theorem wit_ClockInv_sending : ClockInv (sending 4 0x04) where
  link_open := by decide
  cursor_le := by decide
  image := by decide
  drain := by intro k h; cases h
  block := fun _ =>
    ⟨[0x55, 0x3C, 0x01, 0x03, 0x10, 0x20, 0x30, 0x64, 0x55], by decide,
      ⟨by decide, by decide, by decide, by decide, by decide⟩⟩
  no_block := by decide

theorem wit_ClockInv_block_start : ClockInv (sending 0 0x00) where
  link_open := by decide
  cursor_le := by decide
  image := by decide
  drain := by intro k h; cases h
  block := fun _ =>
    ⟨[0x55, 0x3C, 0x01, 0x03, 0x10, 0x20, 0x30, 0x64, 0x55], by decide,
      ⟨by decide, by decide, by decide, by decide, by decide⟩⟩
  no_block := by decide

theorem wit_TransmitPortOffersTheBlock :
    ClockInv (sending 4 0x04) ∧ (sending 4 0x04).sendsBlock = true ∧ ClockIn.quiet.rst = false ∧
      (ports ClockIn.quiet (sending 4 0x04)).tx = some (0x10, false) := ⟨wit_ClockInv_sending, by decide⟩

theorem wit_ImagePortStaysInTheImage :
    ClockInv (sending 4 0x04) ∧ (ports ClockIn.quiet (sending 4 0x04)).imgAddr = some 0 :=
  ⟨wit_ClockInv_sending, by decide⟩

/-- A cycle in which the Link takes the byte. -/
def takes : ClockIn := { ClockIn.quiet with txReady := true }

theorem wit_BlockGoesOutByteByByte :
    ClockInv (sending 0 0x00) ∧ (sending 0 0x00).sendsBlock = true ∧ (sending 0 0x00).byteIdx = 0 ∧
      (sending 0 0x00).blockBytes? = some [0x55, 0x3C, 0x01, 0x03, 0x10, 0x20, 0x30, 0x64, 0x55] ∧
      (∀ c ∈ List.replicate 8 takes ++ [takes], c.rst = false) ∧ takes.txReady = true ∧
      (List.replicate 8 takes ++ [takes]).countP (fun c => c.txReady) = 9 := ⟨wit_ClockInv_block_start, by decide⟩

/-- The stand-alone Framer, with a stalled cycle in between. -/
theorem wit_BlockGoesOutByteByByte_framer :
    frame .trailer [] = some [0x55, 0x3C, 0xFF, 0x00, 0x00, 0x55] ∧ (framerAsks .trailer []).rst = false ∧
      (framerAsks .trailer []).request = some (.trailer, []) ∧
      (∀ c ∈ (framerAsks .data [] :: List.replicate 5 framerTakes) ++ [framerTakes], c.rst = false) ∧
      framerTakes.txReady = true ∧
      ((framerAsks .data [] :: List.replicate 5 framerTakes) ++ [framerTakes]).countP (fun c => c.txReady) = 6 := by
  decide

theorem wit_DrainIsOnePollStep :
    (waiting 2000 3 [] [0x4F, 0x0A]).state.isAwaiting = true ∧ (waiting 2000 3 [] [0x4F, 0x0A]).linkOpen = true ∧
      (waiting 2000 3 [] [0x4F, 0x0A]).drain = none ∧ (3 : Word16).toNat < (2000 : Word16).toNat ∧
      (waiting 2000 3 [] [0x4F, 0x0A]).rxq ≠ [] ∧
      (List.replicate 4 ClockIn.quiet).length = (waiting 2000 3 [] [0x4F, 0x0A]).rxq.length + 2 ∧
      ∀ c ∈ List.replicate 4 ClockIn.quiet, c.rst = false ∧ c.tickMs = false := by decide

/-- The port clauses: a poll cycle, the pop of the only byte, the evaluation cycle, and a state outside the waits. -/
theorem wit_DrainIsOnePollStep_ports :
    ClockIn.quiet.rst = false ∧ (waiting 2000 2000 [] []).state.isAwaiting = true ∧
      (waiting 2000 2000 [] []).linkOpen = true ∧ (waiting 2000 2000 [] []).drain = none ∧
      (ports ClockIn.quiet (waiting 2000 2000 [] [])).linkClose = true ∧
      { waiting 2000 3 [] [0x0A] with drain := some 1 }.drain = some (0 + 1) ∧
      { waiting 2000 3 [] [0x0A] with drain := some 1 }.rxq = 0x0A :: [] ∧
      { waiting 2000 3 [0x0A] [] with drain := some 0 }.drain = some 0 ∧ (run .done).state.isAwaiting = false := by
  decide

theorem wit_ClockNeverStops : ClockInv (sending 4 0x04) := wit_ClockInv_sending

theorem wit_EveryCycleKeepsTheClockedInvariant :
    ClockInv (sending 4 0x04) ∧
      (ClockIn.quiet.start = true → ∀ i < ClockIn.quiet.imgLenI, ((sending 4 0x04).img.read i).isSome = true) ∧
      clockCycle takes (sending 4 0x04) =
        .next { sending 5 0x14 with wire := [0x10] } := ⟨wit_ClockInv_sending, by decide, rfl⟩

theorem wit_ClockRefinesTheTransactionLevel :
    ClockInv (sending 4 0x04) ∧ ClockIn.quiet.rst = false ∧
      clockCycle takes (sending 4 0x04) =
        .next { sending 5 0x14 with wire := [0x10] } := ⟨wit_ClockInv_sending, rfl, rfl⟩

end Sys2Proof.Tests
end

section
/-! PROOFS. The family 00_scope.md (R15, R64): which operation a step runs, read off the head of the schedule. -/

namespace Sys2Proof.Machine

/-! ### A step, by the head of the schedule -/

/-- A transaction-level schedule: its next entry is carried out on the state without it. -/
theorem step_of_steps_cons {s : State} {e : Event} {es : List Event} (h : s.schedule = .steps (e :: es)) :
    step s = execEvent e (s.begin (.steps es)) := by
  simp only [step, runSchedule, h]

/-- An exhausted transaction-level schedule: the core goes on by itself (R101, R134). -/
theorem step_of_steps_nil {s : State} (h : s.schedule = .steps []) :
    step s = execEvent .core (s.begin (.steps [])) := by
  simp only [step, runSchedule, h]

/-- A clocked schedule: its next entry is carried out on the state without it. -/
theorem step_of_cycles_cons {s : State} {c : CycleEvent} {cs : List CycleEvent} (h : s.schedule = .cycles (c :: cs)) :
    step s = execCycle c (s.begin (.cycles cs)) := by
  simp only [step, runSchedule, h]

/-- An exhausted clocked schedule: the clock goes on with no input driven (log entry 20). -/
theorem step_of_cycles_nil {s : State} (h : s.schedule = .cycles []) :
    step s = execCycle (.clk ClockIn.quiet) (s.begin (.cycles [])) := by
  simp only [step, runSchedule, h]

/-! ### An encoded operation as the next entry -/

theorem execWord_of_decode_ok {bs : List Byte} {i : Instr} (h : decode bs = .ok i) (s : State) :
    execWord bs s = exec i s := by
  simp only [execWord, h]

theorem execWord_of_decode_error {bs : List Byte} {e : DecodeError} (h : decode bs = .error e) (s : State) :
    execWord bs s = .refused .undecodable := by
  simp only [execWord, h]

/-- A table word reads as `i` exactly where the decoder reads the bytes it lays out as `i`. -/
theorem decodeTableWord_eq_some_iff {nbits w : Nat} {i : Instr} :
    decodeTableWord nbits w = some i ↔ decode (layoutTableWord nbits w) = .ok i := by
  unfold decodeTableWord
  cases decode (layoutTableWord nbits w) <;> simp

/-- A word placed before a transaction-level schedule runs first and leaves that schedule. -/
theorem step_withFetchWord_of_steps {s : State} {es : List Event} (h : s.schedule = .steps es) (nbits w : Nat) :
    step (s.withFetchWord nbits w) = execWord (layoutTableWord nbits w) (s.begin (.steps es)) := by
  have hsched : (s.withFetchWord nbits w).schedule = .steps (.framerWord (layoutTableWord nbits w) :: es) := by
    simp only [State.withFetchWord, Schedule.withWord, h]
  exact step_of_steps_cons hsched

/-- A clocked schedule gives way to a placed word, which runs alone. -/
theorem step_withFetchWord_of_cycles {s : State} {cs : List CycleEvent} (h : s.schedule = .cycles cs) (nbits w : Nat) :
    step (s.withFetchWord nbits w) = execWord (layoutTableWord nbits w) (s.begin (.steps [])) := by
  have hsched : (s.withFetchWord nbits w).schedule = .steps [.framerWord (layoutTableWord nbits w)] := by
    simp only [State.withFetchWord, Schedule.withWord, h]
  exact step_of_steps_cons hsched

/-! ### The two statements -/

/-- Settles O43: the head of the schedule is a word in each clause, and the decoder's answer picks the outcome. -/
theorem stepRunsTheDecodedOperation : Obligations.StepRunsTheDecodedOperation := by
  refine ⟨?_, ?_, ?_, ?_⟩
  · intro s bs es i hsched hdec
    exact (step_of_steps_cons hsched).trans (execWord_of_decode_ok hdec _)
  · intro s nbits w es i hsched hdec
    exact (step_withFetchWord_of_steps hsched nbits w).trans
      (execWord_of_decode_ok (decodeTableWord_eq_some_iff.1 hdec) _)
  · intro s nbits w cs i hsched hdec
    exact (step_withFetchWord_of_cycles hsched nbits w).trans
      (execWord_of_decode_ok (decodeTableWord_eq_some_iff.1 hdec) _)
  · intro s bs es e hsched hdec
    exact (step_of_steps_cons hsched).trans (execWord_of_decode_error hdec _)

/-- Settles O44: one clause per kind of entry at each level, and per step of the environment. -/
theorem stepRunsTheScheduledAgent : Obligations.StepRunsTheScheduledAgent := by
  refine ⟨?transactions, ?cycles, ?environment⟩
  case transactions =>
    rintro s u es rfl
    refine ⟨step_of_steps_cons, ?coreGoesOn, step_of_steps_cons, fun _ _ _ => step_of_steps_cons, step_of_steps_cons,
      fun _ _ => step_of_steps_cons, fun _ => step_of_steps_cons⟩
    case coreGoesOn =>
      rintro hsched rfl
      exact step_of_steps_nil hsched
  case cycles =>
    rintro s u cs rfl
    refine ⟨fun _ => step_of_cycles_cons, ?clockGoesOn, fun _ => step_of_cycles_cons, fun _ => step_of_cycles_cons⟩
    case clockGoesOn =>
      rintro hsched rfl
      exact step_of_cycles_nil hsched
  case environment =>
    exact fun u => ⟨fun _ => rfl, fun _ _ _ => rfl, rfl, fun _ => rfl⟩

end Sys2Proof.Machine
end

section
/-! PROOFS. The family 10_state.md: which operations write which register (R18, R19), and what the poll step sees of
the receive buffer (R26). -/

namespace Sys2Proof.Machine

/-! ### What an operation leaves -/

/-- A function run on its own answers and does nothing else (log entry 9). -/
theorem exec_function {i : Instr} {s t : State} (hf : isFunction i = true) (h : exec i s = .next t) :
    ∃ a, t = s.answering a := by
  cases i <;> simp only [isFunction, Bool.false_eq_true] at hf <;> simp only [exec] at h
  case frameStart | frameData | frameTrailer | frameInvalid | checksum | ackLine => cases h; exact ⟨_, rfl⟩
  case segNext => unfold execSegNext at h; split at h <;> cases h; exact ⟨_, rfl⟩
  case sessionAckNext => unfold execSessionAckNext at h; split at h <;> cases h; exact ⟨_, rfl⟩
  case linkAvail => unfold execLinkAvail at h; split at h <;> cases h; exact ⟨_, rfl⟩
  case memRead => unfold execMemRead at h; split at h <;> cases h; exact ⟨_, rfl⟩

/-- Any operation but UPLOAD: an answer, or one of the cases of `ExecCase`. -/
theorem exec_answers_or_case {i : Instr} {s t : State} (hu : ∀ a v image waits, i ≠ .upload a v image waits)
    (h : exec i s = .next t) : (∃ a, t = s.answering a) ∨ ExecCase s i t := by
  cases hf : isFunction i with
  | true => exact .inl (exec_function hf h)
  | false => exact .inr (exec_cases hf hu h)

/-! ### The writers of each register (R18)

Each lemma names the writers as the constructors its premises exclude; the other constructors do not write. -/

section
variable {i : Instr} {s t : State}

/-- The writers of `state`. -/
theorem ExecCase.state_eq (c : ExecCase s i t) (hreset : i ≠ .hostReset) (hstart : ∀ a n v, i ≠ .hostStart a n v)
    (hss : i ≠ .sessionSendStart) (hsd : i ≠ .sessionSendData) (hnd : i ≠ .sessionNoData)
    (hst : i ≠ .sessionSendTrailer) (henter : ∀ w, i ≠ .awaitEnter w) (hpoll : i ≠ .awaitPoll) (hack : i ≠ .awaitAck)
    (htimeout : i ≠ .awaitTimeout) : t.state = s.state := by
  cases c with
  | reset => exact absurd rfl hreset
  | startIgnored | start => exact absurd rfl (hstart _ _ _)
  | sendStart => exact absurd rfl hss
  | sendData => exact absurd rfl hsd
  | noData => exact absurd rfl hnd
  | sendTrailer => exact absurd rfl hst
  | enter => exact absurd rfl (henter _)
  | pollTimeout | pollNothing | pollAck | pollRead => exact absurd rfl hpoll
  | ack => exact absurd rfl hack
  | timeout => exact absurd rfl htimeout
  | _ => simp

/-- The start command is the only writer of `start_addr`, `img_len` and `timeout_ms`. -/
theorem ExecCase.start_inputs_eq (c : ExecCase s i t) (hreset : i ≠ .hostReset)
    (hstart : ∀ a n v, i ≠ .hostStart a n v) :
    t.startAddr = s.startAddr ∧ t.imgLen = s.imgLen ∧ t.timeoutMs = s.timeoutMs := by
  cases c with
  | reset => exact absurd rfl hreset
  | startIgnored | start => exact absurd rfl (hstart _ _ _)
  | _ => simp

/-- The writers of `cursor`. -/
theorem ExecCase.cursor_eq (c : ExecCase s i t) (hreset : i ≠ .hostReset) (hstart : ∀ a n v, i ≠ .hostStart a n v)
    (hsd : i ≠ .sessionSendData) : t.cursor = s.cursor := by
  cases c with
  | reset => exact absurd rfl hreset
  | startIgnored | start => exact absurd rfl (hstart _ _ _)
  | sendData => exact absurd rfl hsd
  | _ => simp

/-- The writers of `err`: the two ways into the failure transition. -/
theorem ExecCase.err_eq (c : ExecCase s i t) (hreset : i ≠ .hostReset) (hpoll : i ≠ .awaitPoll)
    (htimeout : i ≠ .awaitTimeout) : t.err = s.err := by
  cases c with
  | reset => exact absurd rfl hreset
  | pollTimeout | pollNothing | pollAck | pollRead => exact absurd rfl hpoll
  | timeout => exact absurd rfl htimeout
  | _ => simp

/-- The writers of `wd_elapsed`: the entries to a wait and the tick. -/
theorem ExecCase.wdElapsed_eq (c : ExecCase s i t) (hreset : i ≠ .hostReset) (hss : i ≠ .sessionSendStart)
    (hsd : i ≠ .sessionSendData) (hst : i ≠ .sessionSendTrailer) (henter : ∀ w, i ≠ .awaitEnter w) (htick : i ≠ .tick) :
    t.wdElapsed = s.wdElapsed := by
  cases c with
  | reset => exact absurd rfl hreset
  | sendStart => exact absurd rfl hss
  | sendData => exact absurd rfl hsd
  | sendTrailer => exact absurd rfl hst
  | enter => exact absurd rfl (henter _)
  | tick => exact absurd rfl htick
  | _ => simp

/-- The writers of `rxbuf`: the entries to a wait and the poll step with its two paths. -/
theorem ExecCase.rxbuf_eq (c : ExecCase s i t) (hreset : i ≠ .hostReset) (hss : i ≠ .sessionSendStart)
    (hsd : i ≠ .sessionSendData) (hst : i ≠ .sessionSendTrailer) (henter : ∀ w, i ≠ .awaitEnter w)
    (hpoll : i ≠ .awaitPoll) (hack : i ≠ .awaitAck) (htimeout : i ≠ .awaitTimeout) : t.rxbuf = s.rxbuf := by
  cases c with
  | reset => exact absurd rfl hreset
  | sendStart => exact absurd rfl hss
  | sendData => exact absurd rfl hsd
  | sendTrailer => exact absurd rfl hst
  | enter => exact absurd rfl (henter _)
  | pollTimeout | pollNothing | pollAck | pollRead => exact absurd rfl hpoll
  | ack => exact absurd rfl hack
  | timeout => exact absurd rfl htimeout
  | _ => simp

/-- What belongs to the clocked refinement only (R27, R115), and the stand-alone Framer (R118). -/
theorem ExecCase.work_eq (c : ExecCase s i t) (hreset : i ≠ .hostReset) :
    t.blkKind = s.blkKind ∧ t.blkLen = s.blkLen ∧ t.cksAcc = s.cksAcc ∧ t.byteIdx = s.byteIdx ∧ t.drain = s.drain ∧
      t.framer = s.framer := by
  cases c with
  | reset => exact absurd rfl hreset
  | _ => simp

/-- No operation schedules a step. -/
theorem ExecCase.schedule_eq (c : ExecCase s i t) : t.schedule = s.schedule := by
  cases c <;> simp

end

/-- Settles O40: an answer writes no register, and each other operation writes those of its row only. -/
theorem registersHaveTheirWriters : Obligations.RegistersHaveTheirWriters := by
  intro i s t hreset hu h
  obtain ⟨a, rfl⟩ | c := exec_answers_or_case hu h
  · simp
  · refine ⟨c.state_eq hreset, fun hstart => ?_, c.err_eq hreset, fun hss hsd hst henter => ?_, c.work_eq hreset⟩
    · obtain ⟨ha, hl, ht⟩ := c.start_inputs_eq hreset hstart
      exact ⟨ha, hl, ht, c.cursor_eq hreset hstart⟩
    · exact ⟨c.wdElapsed_eq hreset hss hsd hst henter, c.rxbuf_eq hreset hss hsd hst henter⟩

/-! ### The receive buffer in the poll step (R26) -/

/-- Settles O36: the two polls test the same time and the same queue, and the newline search of the second gives what that
of the first gives. -/
theorem pollSeesOnlyTheNewline : Obligations.PollSeesOnlyTheNewline := by
  intro s t b hb h
  obtain ⟨w, hw, ho, rfl⟩ := execAwaitPoll_next h
  refine ⟨_, execAwaitPoll_open (s := { s with rxbuf := b }) hw ho, ?_⟩
  have htime : State.timeUp { s with rxbuf := b } = s.timeUp := rfl
  have hnewline : hasNewline (b ++ s.rxq) = hasNewline (s.rxbuf ++ s.rxq) := by
    rw [hasNewline_append, hasNewline_append, hb]
  simp only [htime, hnewline]
  split
  case isTrue => exact ⟨rfl, rfl, rfl⟩
  case isFalse =>
    split
    case isTrue => exact ⟨rfl, hb, rfl⟩
    case isFalse =>
      split
      case isTrue => exact ⟨rfl, rfl, by simp⟩
      case isFalse => exact ⟨rfl, by simpa using hnewline, rfl⟩

end Sys2Proof.Machine
end

section
/-! PROOFS. The invariant of every step (10_state.md R21, R26, R28): it is taken apart into what concerns the session,
the same at both levels, and what concerns the level; each register update keeps the session part where a rule makes it. -/

namespace Sys2Proof.Machine

/-! ### The invariant in two parts -/

/-- The part of the invariant that does not depend on the level of the run. -/
structure SessionSound (s : State) : Prop where
  cursor_le : s.cursor ≤ s.imgLen
  err_iff : s.err = .noAcknowledgment ↔ s.state = .failed
  err_kind : s.err = .none ∨ s.err = .noAcknowledgment
  link_open : s.busy = true → s.linkOpen = true
  rxbuf_empty : s.state.isAwaiting = false → s.rxbuf = []
  cursor_zero : s.state = .sendingStart ∨ s.state = .awaitingStartAck → s.cursor = 0
  cursor_end : s.state = .sendingTrailer ∨ s.state = .awaitingTrailerAck ∨ s.state = .done → s.cursor = s.imgLen
  image_wf : s.img.wf = true

theorem Inv.sessionSound {s : State} (h : Inv s) : SessionSound s :=
  ⟨h.cursor_le, h.err_iff, h.err_kind, h.link_open, h.rxbuf_empty, h.cursor_zero, h.cursor_end, h.image_wf⟩

/-- At the transaction level the rest of the invariant is that no drain is in progress. -/
theorem inv_iff_of_steps {s : State} (hs : s.schedule.isClocked = false) : Inv s ↔ SessionSound s ∧ s.drain = none := by
  refine ⟨fun h => ⟨h.sessionSound, h.no_drain hs⟩, fun ⟨h, hd⟩ => ?_⟩
  exact ⟨h.cursor_le, h.err_iff, h.err_kind, h.link_open, h.rxbuf_empty, h.cursor_zero, h.cursor_end, h.image_wf,
    fun _ => hd, fun hc => by simp [hs] at hc⟩

/-- At the clocked level it is that the drain and the length of the Block are sound. -/
theorem inv_iff_of_cycles {s : State} (hs : s.schedule.isClocked = true) :
    Inv s ↔ SessionSound s ∧ s.drainSound ∧ s.blkLenSound := by
  refine ⟨fun h => ⟨h.sessionSound, h.clocked hs⟩, fun ⟨h, hc⟩ => ?_⟩
  exact ⟨h.cursor_le, h.err_iff, h.err_kind, h.link_open, h.rxbuf_empty, h.cursor_zero, h.cursor_end, h.image_wf,
    fun hd => by simp [hs] at hd, fun _ => hc⟩

/-- Settles O46: reset is a transaction-level state in `Idle` with nothing sent. -/
theorem invariantHoldsAtReset : Obligations.InvariantHoldsAtReset :=
  (inv_iff_of_steps rfl).2
    ⟨⟨Nat.le_refl _, by decide, .inl rfl, by decide, fun _ => rfl, fun _ => rfl, fun _ => rfl, rfl⟩, rfl⟩

/-! ### What the two parts look at -/

/-- The registers and the environment that `SessionSound` looks at are the same. -/
structure SameSession (s t : State) : Prop where
  state : t.state = s.state
  imgLen : t.imgLen = s.imgLen
  cursor : t.cursor = s.cursor
  rxbuf : t.rxbuf = s.rxbuf
  err : t.err = s.err
  img : t.img = s.img
  linkOpen : t.linkOpen = s.linkOpen

theorem SessionSound.congr {s t : State} (h : SessionSound s) (f : SameSession s t) : SessionSound t where
  cursor_le := by rw [f.cursor, f.imgLen]; exact h.cursor_le
  err_iff := by rw [f.err, f.state]; exact h.err_iff
  err_kind := by rw [f.err]; exact h.err_kind
  link_open := by rw [State.busy, f.state, f.linkOpen]; exact h.link_open
  rxbuf_empty := by rw [f.state, f.rxbuf]; exact h.rxbuf_empty
  cursor_zero := by rw [f.state, f.cursor]; exact h.cursor_zero
  cursor_end := by rw [f.state, f.cursor, f.imgLen]; exact h.cursor_end
  image_wf := by rw [f.img]; exact h.image_wf

/-- All that the invariant looks at is the same, and the schedule stays at its level. -/
structure SameInv (s t : State) : Prop extends SameSession s t where
  blkLen : t.blkLen = s.blkLen
  drain : t.drain = s.drain
  rxq : t.rxq = s.rxq
  level : t.schedule.isClocked = s.schedule.isClocked

theorem State.drainSound.congr {s t : State} (h : s.drainSound) (f : SameInv s t) : t.drainSound := by
  rw [State.drainSound, f.drain, f.state, f.rxq]; exact h

theorem State.blkLenSound.congr {s t : State} (h : s.blkLenSound) (f : SameInv s t) : t.blkLenSound := by
  rw [State.blkLenSound, f.state, f.cursor, f.imgLen, f.blkLen]; exact h

theorem Inv.congr {s t : State} (h : Inv s) (f : SameInv s t) : Inv t := by
  cases hl : s.schedule.isClocked with
  | false =>
    obtain ⟨hs, hd⟩ := (inv_iff_of_steps hl).1 h
    exact (inv_iff_of_steps (f.level.trans hl)).2 ⟨hs.congr f.toSameSession, f.drain.trans hd⟩
  | true =>
    obtain ⟨hs, hd, hb⟩ := (inv_iff_of_cycles hl).1 h
    exact (inv_iff_of_cycles (f.level.trans hl)).2 ⟨hs.congr f.toSameSession, hd.congr f, hb.congr f⟩

theorem Inv.begin {s : State} (h : Inv s) {rest : Schedule} (hl : rest.isClocked = s.schedule.isClocked) :
    Inv (s.begin rest) :=
  h.congr ⟨⟨rfl, rfl, rfl, rfl, rfl, rfl, rfl⟩, rfl, rfl, rfl, hl⟩

theorem Inv.answering {s : State} (h : Inv s) (a : Answer) : Inv (s.answering a) :=
  h.congr ⟨⟨rfl, rfl, rfl, rfl, rfl, rfl, rfl⟩, rfl, rfl, rfl, rfl⟩

theorem Inv.clockFramer {s : State} (h : Inv s) (inputs : FramerIn) : Inv (s.clockFramer inputs) :=
  h.congr ⟨⟨rfl, rfl, rfl, rfl, rfl, rfl, rfl⟩, rfl, rfl, rfl, rfl⟩

theorem Inv.tick {s : State} (h : Inv s) : Inv s.tick := by
  refine h.congr ⟨⟨?_, ?_, ?_, ?_, ?_, ?_, ?_⟩, ?_, ?_, ?_, ?_⟩ <;> simp

/-! ### The updates of the session

In `{ h with … }` the update leaves every register that the clauses not written out speak of. -/

section
variable {s : State} (h : SessionSound s)
include h

theorem SessionSound.not_noAcknowledgment (hf : s.state ≠ .failed) : s.err ≠ .noAcknowledgment :=
  fun he => hf (h.err_iff.1 he)

theorem SessionSound.resetRegs : SessionSound s.resetRegs where
  cursor_le := Nat.zero_le _
  err_iff := by simp
  err_kind := .inl rfl
  link_open := by simp [State.busy]
  rxbuf_empty := fun _ => rfl
  cursor_zero := fun _ => rfl
  cursor_end := by simp
  image_wf := h.image_wf

/-- The start command's latch (R110). -/
theorem SessionSound.latchStart (hi : s.state = .idle) (ho : s.linkOpen = true) (a : Word16) (n : Nat) (v : Word16) :
    SessionSound (s.latchStart a n v) where
  cursor_le := Nat.zero_le _
  err_iff := by simp [h.not_noAcknowledgment (by simp [hi])]
  err_kind := h.err_kind
  link_open := fun _ => ho
  rxbuf_empty := fun _ => h.rxbuf_empty (by simp [hi]; rfl)
  cursor_zero := fun _ => rfl
  cursor_end := by simp
  image_wf := h.image_wf

/-- The step of R85. -/
theorem SessionSound.noData (hi : s.state = .sendingData) (hc : s.cursor = s.imgLen) :
    SessionSound (s.goto .sendingTrailer) where
  cursor_le := h.cursor_le
  err_iff := by simp [h.not_noAcknowledgment (by simp [hi])]
  err_kind := h.err_kind
  link_open := fun _ => h.link_open (by simp [State.busy, hi])
  rxbuf_empty := fun _ => h.rxbuf_empty (by simp [hi]; rfl)
  cursor_zero := by simp
  cursor_end := fun _ => hc
  image_wf := h.image_wf

/-- The end of a sending step (R83, R84, R86): `cursor` moves on inside the Image, for a Data Block only, and the wait
begins. -/
theorem SessionSound.advance_enterAwait {w : Wait} {n : Nat} (hw : s.state = w.sender) (hn : n ≤ s.imgLen - s.cursor)
    (h0 : w ≠ .dataAck → n = 0) : SessionSound ((s.advance n).enterAwait w) where
  cursor_le := by have := h.cursor_le; simp; omega
  err_iff := by cases w <;> simp [Wait.session, h.not_noAcknowledgment, hw, Wait.sender]
  err_kind := h.err_kind
  link_open := fun _ => h.link_open (by cases w <;> simp [State.busy, hw, Wait.sender])
  rxbuf_empty := fun _ => rfl
  cursor_zero := by cases w <;> simp_all [Wait.session, h.cursor_zero, Wait.sender]
  cursor_end := by cases w <;> simp_all [Wait.session, h.cursor_end, Wait.sender]
  image_wf := h.image_wf

/-- The acknowledgment path (R98). -/
theorem SessionSound.acknowledge {w : Wait} (hw : s.state = w.session) : SessionSound (s.acknowledge w) where
  cursor_le := h.cursor_le
  err_iff := by cases w <;> simp [Wait.next, h.not_noAcknowledgment, hw, Wait.session]
  err_kind := h.err_kind
  link_open := fun _ => h.link_open (by cases w <;> simp [State.busy, hw, Wait.session])
  rxbuf_empty := fun _ => rfl
  cursor_zero := by cases w <;> simp [Wait.next]
  cursor_end := by cases w <;> simp [Wait.next, h.cursor_end, hw, Wait.session]
  image_wf := h.image_wf

/-- The failure transition (R99, R126). -/
theorem SessionSound.enterFailed : SessionSound s.enterFailed where
  cursor_le := h.cursor_le
  err_iff := by simp
  err_kind := .inr rfl
  link_open := by simp [State.busy]
  rxbuf_empty := fun _ => rfl
  cursor_zero := by simp
  cursor_end := by simp
  image_wf := h.image_wf

/-- Bytes read in a wait (R97). -/
theorem SessionSound.pushRxbuf {w : Wait} (hw : s.state = w.session) (bs : List Byte) :
    SessionSound (s.pushRxbuf bs) :=
  { h with rxbuf_empty := by simp [hw] }

theorem SessionSound.openLink (d : String) (r : Nat) (q : List Byte) : SessionSound (s.openLink d r q) :=
  { h with link_open := fun _ => rfl }

/-- The Link may close while no run goes on (R111). -/
theorem SessionSound.closeLink (hb : s.busy = false) : SessionSound s.closeLink :=
  { h with link_open := fun hb' => absurd (hb.symm.trans hb') Bool.false_ne_true }

theorem SessionSound.loadImage (image : List Byte) : SessionSound (s.loadImage image) :=
  { h with image_wf := Memory.ofBytes_wf image }

end

/-! ### The steps of the environment, at either level -/

/-- A step of the environment leaves the core's registers, the drain, `blk_len` and the schedule. -/
theorem execEnv_core_eq {e : EnvEvent} {s t : State} (h : execEnv e s = .next t) :
    t.state = s.state ∧ t.imgLen = s.imgLen ∧ t.cursor = s.cursor ∧ t.blkLen = s.blkLen ∧ t.drain = s.drain ∧
      t.schedule = s.schedule := by
  obtain ⟨b, -, -, rfl⟩ | ⟨-, ⟨d, r, q, rfl⟩ | rfl | ⟨-, rfl⟩ | ⟨image, rfl⟩⟩ := execEnv_cases h <;> simp

theorem execEnv_keeps_sessionSound {e : EnvEvent} {s t : State} (h : execEnv e s = .next t) (hs : SessionSound s) :
    SessionSound t := by
  obtain ⟨b, -, -, rfl⟩ | ⟨hb, ⟨d, r, q, rfl⟩ | rfl | ⟨-, rfl⟩ | ⟨image, rfl⟩⟩ := execEnv_cases h
  · exact { hs with }
  · exact hs.openLink d r q
  · exact { hs with }
  · exact hs.closeLink hb
  · exact hs.loadImage image

theorem State.not_awaiting_of_not_busy {s : State} (h : s.busy = false) : s.state.isAwaiting = false := by
  revert h
  cases hs : s.state <;> simp [State.busy, hs] <;> rfl

/-- Outside the waits no drain is in progress. -/
theorem State.drainSound.drain_eq_none {s : State} (h : s.drainSound) (ha : s.state.isAwaiting = false) :
    s.drain = none := by
  cases hd : s.drain with
  | none => rfl
  | some k => exact absurd (h k hd).1 (by simp [ha])

theorem State.drainSound_of_eq_none {s : State} (h : s.drain = none) : s.drainSound := by
  intro k hk
  rw [h] at hk
  cases hk

/-- The queue only grows in a run: the bytes a drain has still to pop stay queued. -/
theorem execEnv_keeps_drainSound {e : EnvEvent} {s t : State} (h : execEnv e s = .next t) (hd : s.drainSound) :
    t.drainSound := by
  obtain ⟨-, -, -, -, hdrain, -⟩ := execEnv_core_eq h
  obtain ⟨b, -, -, rfl⟩ | ⟨hb, -⟩ := execEnv_cases h
  · intro k hk
    obtain ⟨ha, hq⟩ := hd k hk
    exact ⟨ha, by simp; omega⟩
  · exact State.drainSound_of_eq_none
      (hdrain.trans (hd.drain_eq_none (State.not_awaiting_of_not_busy hb)))

theorem execEnv_keeps_inv {e : EnvEvent} {s t : State} (h : execEnv e s = .next t) (hi : Inv s) : Inv t := by
  obtain ⟨hstate, hlen, hcursor, hblk, hdrain, hsched⟩ := execEnv_core_eq h
  have hs := execEnv_keeps_sessionSound h hi.sessionSound
  cases hl : s.schedule.isClocked with
  | false =>
    exact (inv_iff_of_steps (by rw [hsched, hl])).2 ⟨hs, hdrain.trans (hi.no_drain hl)⟩
  | true =>
    obtain ⟨hd, hb⟩ := hi.clocked hl
    refine (inv_iff_of_cycles (by rw [hsched, hl])).2 ⟨hs, execEnv_keeps_drainSound h hd, ?_⟩
    rw [State.blkLenSound, hstate, hcursor, hlen, hblk]
    exact hb

/-! ### The transaction level -/

/-- The core's step keeps the session part: a sending step, the step of R85, or a poll step. -/
theorem coreStep_keeps_sessionSound {s t : State} (h : coreStep s = .next t) (hs : SessionSound s) :
    SessionSound t := by
  obtain ⟨rfl, -⟩ | c | c | c | c | c := coreStep_cases h
  · exact hs
  · cases c with
    | sendStart hw => exact { hs.advance_enterAwait (w := .startAck) hw (Nat.zero_le _) fun _ => rfl with }
  · cases c with
    | sendData hw hc ho chunk hl =>
      have hn : chunk.length ≤ s.imgLen - s.cursor := hl ▸ chunkSize_le_rest _ _
      exact { hs.advance_enterAwait (w := .dataAck) hw hn fun hw => absurd rfl hw with }
  · cases c with
    | noData hw hc => exact hs.noData hw hc
  · cases c with
    | sendTrailer hw => exact { hs.advance_enterAwait (w := .trailerAck) hw (Nat.zero_le _) fun _ => rfl with }
  · cases c with
    | pollTimeout => exact hs.enterFailed
    | pollNothing => exact hs
    | pollAck w hw => exact { hs.acknowledge hw with }
    | pollRead w hw => exact { hs.pushRxbuf hw s.rxq with }

/-- The core's step schedules nothing and starts no drain. -/
theorem coreStep_level_eq {s t : State} (h : coreStep s = .next t) :
    t.schedule = s.schedule ∧ t.drain = s.drain := by
  obtain ⟨rfl, -⟩ | c | c | c | c | c := coreStep_cases h
  · exact ⟨rfl, rfl⟩
  all_goals
    obtain ⟨-, -, -, -, hdrain, -⟩ := c.work_eq (by simp)
    exact ⟨c.schedule_eq, hdrain⟩

theorem execEvent_keeps_inv {e : Event} {s t : State} (hl : s.schedule.isClocked = false)
    (h : execEvent e s = .next t) (hi : Inv s) : Inv t := by
  obtain ⟨hs, hd⟩ := (inv_iff_of_steps hl).1 hi
  obtain ⟨-, h⟩ | ⟨-, rfl⟩ | ⟨a, n, v, -, ⟨-, rfl⟩ | ⟨hidle, ho, rfl⟩⟩ | ⟨-, rfl⟩ | ⟨e, -, h⟩ | ⟨a, rfl⟩ :=
    execEvent_cases h
  · obtain ⟨hsched, hdrain⟩ := coreStep_level_eq h
    exact (inv_iff_of_steps (by rw [hsched, hl])).2 ⟨coreStep_keeps_sessionSound h hs, hdrain.trans hd⟩
  · exact hi.tick
  · exact hi
  · exact (inv_iff_of_steps (s := s.latchStart a n v) hl).2 ⟨hs.latchStart hidle ho a n v, hd⟩
  · exact (inv_iff_of_steps (s := s.resetRegs) hl).2 ⟨hs.resetRegs, rfl⟩
  · exact execEnv_keeps_inv h hi
  · exact hi.answering a

/-! ### The clocked level -/

theorem CycleCase.schedule_eq {inputs : ClockIn} {s t : State} (c : CycleCase inputs s t) : t.schedule = s.schedule := by
  cases c <;> simp [State.finishBlock]

/-- Starting a Block does not touch the session. -/
theorem SameSession.loadBlk (s : State) : SameSession s s.loadBlk := by constructor <;> simp

/-- The Block a sending state sends belongs to the wait it enters. -/
theorem State.sender_of_sendsBlock {s : State} (h : s.sendsBlock = true) :
    s.state = s.state.blockWait.sender ∧ (s.state = .sendingData → s.cursor ≠ s.imgLen) := by
  obtain hs | ⟨hs, hc⟩ | hs := s.sendsBlock_cases h <;> simp [hs, SessionState.blockWait, Wait.sender]
  exact hc

/-- How far `cursor` moves when the Block in progress is finished (R84, R114). -/
def State.blockAdvance (s : State) : Nat :=
  if s.state = .sendingData then s.blkLen.toNat else 0

/-- Finishing a Block is, for the session, the end of the sending step. -/
theorem SameSession.finishBlock (s : State) :
    SameSession ((s.advance s.blockAdvance).enterAwait s.state.blockWait) s.finishBlock := by
  constructor <;> simp [State.finishBlock, State.blockAdvance]
  split <;> simp

/-- `blk_len` is the size of the chunk, so `cursor` stays inside the Image. -/
theorem State.blockAdvance_le {s : State} (h : s.sendsBlock = true) (hb : s.blkLenSound) :
    s.blockAdvance ≤ s.imgLen - s.cursor := by
  unfold State.blockAdvance
  split
  · rename_i hs
    rw [hb hs ((State.sender_of_sendsBlock h).2 hs), lenByte_toNat (chunkSize_le _ _)]
    exact chunkSize_le_rest _ _
  · exact Nat.zero_le _

theorem SessionSound.finishBlock {s : State} (hs : SessionSound s) (h : s.sendsBlock = true) (hb : s.blkLenSound) :
    SessionSound s.finishBlock := by
  refine (hs.advance_enterAwait (State.sender_of_sendsBlock h).1 (State.blockAdvance_le h hb) fun hw => ?_).congr
    (SameSession.finishBlock s)
  refine if_neg fun hd => hw ?_
  rw [hd]; rfl

theorem CycleCase.keeps_sessionSound {inputs : ClockIn} {s t : State} (c : CycleCase inputs s t) (hs : SessionSound s)
    (hb : s.blkLenSound) : SessionSound t := by
  cases c with
  | rest => exact hs
  | latch hidle ho => exact (hs.latchStart hidle ho _ _ _).congr (.loadBlk _)
  | stall => exact hs
  | byte => exact { hs with }
  | last h _ _ b => exact SessionSound.finishBlock (s := s.transferByte b) { hs with } h hb
  | noData hw hc => exact (hs.noData hw hc).congr (.loadBlk _)
  | timeout => exact hs.enterFailed
  | quiet => exact hs
  | sample => exact { hs with }
  | pop w hw => exact { hs.pushRxbuf hw (s.rxq.take 1) with }
  | ack w hw => exact (SessionSound.acknowledge (s := { s with drain := none }) { hs with } hw).congr (.loadBlk _)
  | noAck => exact { hs with }

/-- A drain starts with the queued bytes (R115), each pop takes one of both, and outside the waits there is none. -/
theorem CycleCase.keeps_drainSound {inputs : ClockIn} {s t : State} (c : CycleCase inputs s t) (hd : s.drainSound) :
    t.drainSound := by
  cases c with
  | rest | stall | byte | quiet => exact hd
  | latch hidle =>
    have hnone := hd.drain_eq_none (by rw [hidle]; rfl)
    exact State.drainSound_of_eq_none (by simpa using hnone)
  | last h =>
    have hnone := hd.drain_eq_none (State.not_awaiting_of_sendsBlock h).1
    exact State.drainSound_of_eq_none (by simpa [State.finishBlock] using hnone)
  | noData hw =>
    have hnone := hd.drain_eq_none (by rw [hw]; rfl)
    exact State.drainSound_of_eq_none (by simpa using hnone)
  | timeout _ _ hnone => exact State.drainSound_of_eq_none hnone
  | sample w hw =>
    rintro k ⟨⟩
    exact ⟨by simp [hw], Nat.le_refl _⟩
  | pop w hw k hk =>
    rintro k ⟨⟩
    obtain ⟨ha, hq⟩ := hd _ hk
    exact ⟨ha, by simp; omega⟩
  | ack => exact State.drainSound_of_eq_none (by simp)
  | noAck => exact State.drainSound_of_eq_none rfl

/-- A Block starts with the size of its chunk in `blk_len`. -/
theorem State.loadBlk_blkLenSound {s : State} (hc : s.cursor ≤ s.imgLen) : s.loadBlk.blkLenSound := by
  intro hs hne
  simp only [State.loadBlk_state, State.loadBlk_cursor, State.loadBlk_imgLen] at hs hne ⊢
  rw [State.loadBlk_data hs (by omega)]

theorem State.blkLenSound_of_not_sendingData {s : State} (h : s.state ≠ .sendingData) : s.blkLenSound :=
  fun hs => absurd hs h

theorem Wait.session_ne_sendingData (w : Wait) : w.session ≠ .sendingData := by cases w <;> decide

/-- Every way into `SendingData` loads `blk_len`, and no byte transferred changes it. -/
theorem CycleCase.keeps_blkLenSound {inputs : ClockIn} {s t : State} (c : CycleCase inputs s t)
    (hc : s.cursor ≤ s.imgLen) (hb : s.blkLenSound) : t.blkLenSound := by
  cases c with
  | rest | stall | byte | quiet | sample | pop | noAck => exact hb
  | latch => exact State.loadBlk_blkLenSound (Nat.zero_le _)
  | last => exact State.blkLenSound_of_not_sendingData (Wait.session_ne_sendingData _)
  | noData => exact State.loadBlk_blkLenSound hc
  | timeout => exact State.blkLenSound_of_not_sendingData (by simp)
  | ack => exact State.loadBlk_blkLenSound hc

theorem Inv.tickCycle {s t : State} (h : Inv t) (inputs : ClockIn) : Inv (tickCycle inputs s t) := by
  unfold Machine.tickCycle
  split
  · exact h.tick
  · exact h

theorem clockCycle_keeps_inv {inputs : ClockIn} {s t : State} (hl : s.schedule.isClocked = true)
    (h : clockCycle inputs s = .next t) (hi : Inv s) : Inv t := by
  obtain ⟨hs, hd, hb⟩ := (inv_iff_of_cycles hl).1 hi
  obtain ⟨-, rfl⟩ | ⟨-, u, c, rfl⟩ := clockCycle_cases h
  · exact (inv_iff_of_cycles (s := s.resetRegs) hl).2
      ⟨hs.resetRegs, State.drainSound_of_eq_none rfl, State.blkLenSound_of_not_sendingData (by simp)⟩
  · have hu : Inv u := (inv_iff_of_cycles (by rw [c.schedule_eq, hl])).2
      ⟨c.keeps_sessionSound hs hb, c.keeps_drainSound hd, c.keeps_blkLenSound hs.cursor_le hb⟩
    exact hu.tickCycle inputs

theorem execCycle_keeps_inv {c : CycleEvent} {s t : State} (hl : s.schedule.isClocked = true)
    (h : execCycle c s = .next t) (hi : Inv s) : Inv t := by
  cases c with
  | env e => exact execEnv_keeps_inv h hi
  | clk inputs => exact clockCycle_keeps_inv hl h hi
  | framer inputs => cases h; exact hi.clockFramer inputs

/-! ### Every step -/

/-- Settles O47: a schedule stays at its level, and at each level the entry taken keeps the invariant. -/
theorem everyStepKeepsTheInvariant : Obligations.EveryStepKeepsTheInvariant := by
  intro s t hi h
  cases hsched : s.schedule with
  | steps es =>
    have hb (rest) : Inv (s.begin (.steps rest)) := hi.begin (by rw [hsched]; rfl)
    cases es with
    | nil => exact execEvent_keeps_inv rfl (step_of_steps_nil hsched ▸ h) (hb _)
    | cons e es => exact execEvent_keeps_inv rfl (step_of_steps_cons hsched ▸ h) (hb _)
  | cycles cs =>
    have hb (rest) : Inv (s.begin (.cycles rest)) := hi.begin (by rw [hsched]; rfl)
    cases cs with
    | nil => exact execCycle_keeps_inv rfl (step_of_cycles_nil hsched ▸ h) (hb _)
    | cons c cs => exact execCycle_keeps_inv rfl (step_of_cycles_cons hsched ▸ h) (hb _)

end Sys2Proof.Machine
end

section
/-! PROOFS. The family 20_memory.md: no operation writes the Image (R37), and what MEM.READ answers (R36). -/

namespace Sys2Proof.Machine

/-! ### The Image is read only (R37) -/

/-- The Image has no writer: every case leaves it, reset and the failure transition included. -/
theorem ExecCase.img_eq {i : Instr} {s t : State} (c : ExecCase s i t) : t.img = s.img := by
  cases c <;> simp

/-- No operation but UPLOAD replaces the Image as a whole. -/
theorem exec_img_eq {i : Instr} {s t : State} (hu : ∀ a v image waits, i ≠ .upload a v image waits)
    (h : exec i s = .next t) : t.img = s.img := by
  obtain ⟨a, rfl⟩ | c := exec_answers_or_case hu h
  · exact State.answering_img s a
  · exact c.img_eq

/-- Settles O15: the Image is the same, so each of its offsets reads the same. -/
theorem imageIsNeverWritten : Obligations.ImageIsNeverWritten := by
  intro i s t hu h offset
  rw [exec_img_eq hu h]

/-! ### MEM.READ (R36) -/

theorem exec_memRead_of_ok {i n : Nat} {s : State} {bs : List Byte} (h : memRead i n s = .ok bs) :
    exec (.memRead i n) s = .next (s.answering (.bytes bs)) := by
  simp only [exec, execMemRead, h]

theorem exec_memRead_of_error {i n : Nat} {s : State} {r : Refusal} (h : memRead i n s = .error r) :
    exec (.memRead i n) s = .refused r := by
  simp only [exec, execMemRead, h]

/-- Settles O12: a read inside the Image answers what `Memory.readMany` gives, one outside is refused. -/
theorem memReadAnswers : Obligations.MemReadAnswers := by
  refine ⟨?inside, ?outside⟩
  case inside =>
    intro i n s hn hlen hheld
    obtain ⟨bs, hok, hread⟩ := memRead_inside hn hlen hheld
    exact ⟨bs, exec_memRead_of_ok hok, Memory.readMany_spec hread⟩
  case outside =>
    intro i n s hout
    exact exec_memRead_of_error (memRead_outside hout)

end Sys2Proof.Machine
end

section
/-! PROOFS. The family 30_encoding.md, the words: the decoder undoes the encoder (R58), the Framer's output is the
layout of R52, the well-formed Blocks of R59 are exactly these layouts, and a reserved kind byte is refused (R60). -/

namespace Sys2Proof

open Machine

/-! ### The decoder on what the encoder lays out -/

theorem requestOf_of_illegalLen {kind : Kind} {payload : List Byte} (h : kind.legalLen payload.length = false) :
    requestOf kind payload = .frameInvalid kind payload := by
  simp [requestOf, h]

/-- A request carries no checksum and no trailer: the decoder takes any payload that fits the length byte (R118). -/
theorem decode_layoutRequest (kind : Kind) {payload : List Byte} (h : payload.length ≤ 255) :
    decode (layoutRequest kind payload) = .ok (requestOf kind payload) := by
  have hdecode := decode_layout kind payload [] h
  rwa [List.append_nil] at hdecode

/-- A Block passes the three tests of its tail: the length its kind allows, the checksum, the trailer. -/
theorem decode_layoutBlock {kind : Kind} {payload : List Byte} (h : kind.legalLen payload.length = true) :
    decode (layoutBlock kind payload) = .ok (requestOf kind payload) := by
  have hdecode := decode_layout kind payload [blockChecksum kind payload, Config.trail] (Kind.legalLen_le h)
  have htail : decodeTail kind payload [blockChecksum kind payload, Config.trail]
      = .ok (requestOf kind payload) := by
    simp [decodeTail, h]
  exact hdecode.trans htail

/-- Settles O2: the rows with a Block, the request of an illegal length, and the rows without an encoding. -/
theorem decodeOfEncode : Obligations.DecodeOfEncode := by
  intro i bs hwf henc
  cases i with
  | frameStart payload =>
    cases henc
    exact (decode_layoutBlock (kind := .start) hwf).trans (congrArg Except.ok (if_pos hwf))
  | frameData payload =>
    cases henc
    exact (decode_layoutBlock (kind := .data) hwf).trans (congrArg Except.ok (if_pos hwf))
  | frameTrailer payload =>
    cases henc
    exact (decode_layoutBlock (kind := .trailer) hwf).trans (congrArg Except.ok (if_pos hwf))
  | frameInvalid kind payload =>
    obtain ⟨hlen, hbs⟩ : payload.length ≤ 255 ∧ layoutRequest kind payload = bs := by simpa [encode] using henc
    obtain ⟨hillegal, -⟩ : kind.legalLen payload.length = false ∧ payload.length ≤ 511 := by
      simpa [Instr.wellFormed] using hwf
    rw [← hbs, decode_layoutRequest kind hlen, requestOf_of_illegalLen hillegal]
  | _ => cases henc

/-! ### The Framer's output is the layout (R54, R70) -/

/-- Settles O4: each kind on the lengths it allows, and on the others. -/
theorem frameIsTheWireLayout : Obligations.FrameIsTheWireLayout := by
  intro kind payload
  cases kind with
  | start =>
    match payload with
    | [p0, p1] => rfl
    | [] | [_] => rfl
    | _ :: _ :: _ :: _ => simp [frame, frameStart, Kind.legalLen_start]
  | data =>
    by_cases h : 1 ≤ payload.length ∧ payload.length ≤ 255
    · rw [frame_data_chunk h.1 h.2, if_pos ((Kind.legalLen_data _).2 h)]
    · rw [if_neg (mt (Kind.legalLen_data _).1 h)]
      exact if_pos (by omega)
  | trailer =>
    match payload with
    | [] => rfl
    | _ :: _ => simp [frame, frameTrailer, Kind.legalLen_trailer]

theorem frame_eq_some_iff {kind : Kind} {payload b : List Byte} :
    frame kind payload = some b ↔ kind.legalLen payload.length = true ∧ b = layoutBlock kind payload := by
  rw [frameIsTheWireLayout kind payload]
  split
  case isTrue h => simp [h, eq_comm]
  case isFalse h => simp [h]

/-! ### The fields of a layout (R52) -/

theorem layoutBlock_kind (kind : Kind) (payload : List Byte) : (layoutBlock kind payload)[2]? = some kind.byte := rfl

theorem layoutBlock_lenByte (kind : Kind) {payload : List Byte} (h : payload.length ≤ 255) :
    ((layoutBlock kind payload).getD 3 0).toNat = payload.length :=
  lenByte_toNat h

/-- The payload stands after the length byte, as long as it says. -/
theorem layoutBlock_payload (kind : Kind) {payload : List Byte} (h : payload.length ≤ 255) :
    ((layoutBlock kind payload).drop 4).take ((layoutBlock kind payload).getD 3 0).toNat = payload := by
  rw [layoutBlock_lenByte kind h]
  exact List.take_left

theorem Kind.byte_injective : Function.Injective Kind.byte := by
  intro kind kind' h
  have hkind := congrArg Kind.ofByte? h
  simpa using hkind

/-! ### The well-formed Blocks are the layouts of the legal payloads (R59) -/

theorem Kind.exists_iff {p : Kind → Prop} : (∃ kind, p kind) ↔ p .start ∨ p .data ∨ p .trailer := by
  constructor
  · rintro ⟨kind, h⟩
    cases kind <;> simp [h]
  · rintro (h | h | h) <;> exact ⟨_, h⟩

/-- R59 clause by clause, as a proposition. -/
theorem isBlock_iff {b : List Byte} : isBlock b = true ↔
    6 ≤ b.length ∧ b[0]? = some Config.head ∧ b[1]? = some Config.sync ∧ b.length = 6 + (b.getD 3 0).toNat ∧
    b[b.length - 1]? = some Config.trail ∧
    ((b[2]? = some Kind.start.byte ∧ (b.getD 3 0).toNat = 2 ∧ b[6]? = some (checksum ((b.drop 2).take 4))) ∨
      (b[2]? = some Kind.data.byte ∧ 1 ≤ (b.getD 3 0).toNat ∧
        b[4 + (b.getD 3 0).toNat]? = some (checksum ((b.drop 2).take (2 + (b.getD 3 0).toNat)))) ∨
      (b[2]? = some Kind.trailer.byte ∧ (b.getD 3 0).toNat = 0 ∧ b[4]? = some 0x00)) := by
  simp only [isBlock, Bool.and_eq_true, Bool.or_eq_true, decide_eq_true_eq, beq_iff_eq, and_assoc, or_assoc]

/-- R59 on the fields of R52: the two sentinels, the trailer, and the length and the checksum of the kind. -/
theorem isBlock_fields_iff {head sync k cks trail : Byte} {payload : List Byte} (hle : payload.length ≤ 255) :
    isBlock ([head, sync, k, lenByte payload.length] ++ payload ++ [cks, trail]) = true ↔
      head = Config.head ∧ sync = Config.sync ∧ trail = Config.trail ∧
      ∃ kind : Kind, k = kind.byte ∧ kind.legalLen payload.length = true ∧ cks = blockChecksum kind payload := by
  obtain ⟨b, hb⟩ : ∃ b, b = [head, sync, k, lenByte payload.length] ++ payload ++ [cks, trail] := ⟨_, rfl⟩
  have hlen : b.length = 6 + payload.length := by simp [hb]; omega
  have h0 : b[0]? = some head := by rw [hb]; rfl
  have h1 : b[1]? = some sync := by rw [hb]; rfl
  have h2 : b[2]? = some k := by rw [hb]; rfl
  have h3 : (b.getD 3 0).toNat = payload.length := by rw [hb]; exact lenByte_toNat hle
  have hcks : b[4 + payload.length]? = some cks := by
    have hfront : ([head, sync, k, lenByte payload.length] ++ payload).length = 4 + payload.length := List.length_append
    rw [hb, List.getElem?_append_right (Nat.le_of_eq hfront), hfront, Nat.sub_self]
    rfl
  have hlast : b[b.length - 1]? = some trail := by rw [← List.getLast?_eq_getElem?, hb, List.getLast?_append]; rfl
  have hregion : (b.drop 2).take (2 + payload.length) = k :: lenByte payload.length :: payload := by
    rw [hb, Nat.add_comm]; simp
  rw [← hb, isBlock_iff, h0, h1, h2, h3, hlast, Kind.exists_iff, Kind.legalLen_start, Kind.legalLen_data,
    Kind.legalLen_trailer]
  simp only [hlen, hle, Nat.le_add_right, true_and, and_true, Option.some.injEq]
  refine and_congr_right fun _ => and_congr_right fun _ => and_congr_right fun _ =>
    or_congr (and_congr_right ?start) (or_congr (and_congr_right ?data) (and_congr_right ?trailer))
  case start =>
    rintro rfl
    refine and_congr_right fun hn => ?_
    have h6 : b[6]? = some cks := by rw [← hcks, hn]
    have hregion4 : (b.drop 2).take 4 = Kind.start.byte :: lenByte payload.length :: payload := by rw [← hregion, hn]
    rw [h6, hregion4, Option.some.injEq, blockChecksum]
  case data =>
    rintro rfl
    rw [hcks, hregion, Option.some.injEq, blockChecksum]
  case trailer =>
    rintro rfl
    refine and_congr_right fun hn => ?_
    have h4 : b[4]? = some cks := by rw [← hcks, hn]
    rw [h4, Option.some.injEq, blockChecksum]

theorem isBlock_layoutBlock {kind : Kind} {payload : List Byte} (h : kind.legalLen payload.length = true) :
    isBlock (layoutBlock kind payload) = true :=
  (isBlock_fields_iff (Kind.legalLen_le h)).2 ⟨rfl, rfl, rfl, kind, rfl, h, rfl⟩

/-- A byte sequence as long as its length byte says has the fields of R52. -/
theorem exists_fields_of_length {b : List Byte} (h : b.length = 6 + (b.getD 3 0).toNat) :
    ∃ (head sync k cks trail : Byte) (payload : List Byte), payload.length ≤ 255 ∧
      b = [head, sync, k, lenByte payload.length] ++ payload ++ [cks, trail] := by
  match b, h with
  | head :: sync :: k :: l :: rest, h =>
    have hcount : rest.length + 4 = 6 + l.toNat := h
    have hrest : rest.length = l.toNat + 2 := by omega
    have hlen : (rest.take l.toNat).length = l.toNat := List.length_take_of_le (by omega)
    have hl : lenByte (rest.take l.toNat).length = l := by
      rw [hlen, lenByte, BitVec.ofNat_toNat, BitVec.setWidth_eq]
    obtain ⟨cks, trail, htail⟩ := List.length_eq_two.1 (show (rest.drop l.toNat).length = 2 by simp [hrest])
    refine ⟨head, sync, k, cks, trail, rest.take l.toNat, by have := l.isLt; omega, ?_⟩
    rw [hl, ← htail, List.append_assoc, List.take_append_drop]
    rfl

/-- A well-formed Block is the layout of a payload that its kind allows. -/
theorem exists_layoutBlock_of_isBlock {b : List Byte} (h : isBlock b = true) :
    ∃ (kind : Kind) (payload : List Byte), kind.legalLen payload.length = true ∧ b = layoutBlock kind payload := by
  obtain ⟨-, -, -, hlen, -⟩ := isBlock_iff.1 h
  obtain ⟨head, sync, k, cks, trail, payload, hle, rfl⟩ := exists_fields_of_length hlen
  obtain ⟨rfl, rfl, rfl, kind, rfl, hlegal, rfl⟩ := (isBlock_fields_iff hle).1 h
  exact ⟨kind, payload, hlegal, rfl⟩

/-- Settles O3: the outputs of the Framer and the well-formed Blocks are both the layouts of the legal payloads, and a
layout names its kind and its payload. -/
theorem wellFormedBlocksAreFrames : Obligations.WellFormedBlocksAreFrames := by
  refine ⟨?wellFormed, ?unique⟩
  case wellFormed =>
    intro kind payload b h
    obtain ⟨hlegal, rfl⟩ := frame_eq_some_iff.1 h
    exact isBlock_layoutBlock hlegal
  case unique =>
    intro b h
    obtain ⟨kind, payload, hlegal, rfl⟩ := exists_layoutBlock_of_isBlock h
    have hpayload := layoutBlock_payload kind (Kind.legalLen_le hlegal)
    have hframe : frame kind payload = some (layoutBlock kind payload) := frame_eq_some_iff.2 ⟨hlegal, rfl⟩
    refine ⟨kind, layoutBlock_kind kind payload, hpayload.symm ▸ hframe, fun kind' payload' h' => ?_⟩
    obtain ⟨hlegal', hsame⟩ := frame_eq_some_iff.1 h'
    have hkind : some kind'.byte = some kind.byte := by
      rw [← layoutBlock_kind kind payload, hsame, layoutBlock_kind]
    refine ⟨Kind.byte_injective (Option.some.inj hkind), ?_⟩
    rw [hsame, layoutBlock_payload kind' (Kind.legalLen_le hlegal')]

/-! ### Words from the document (R58 to R61) -/

/-- Settles O1: each word is run through the decoder. -/
theorem specBlocksDecode : Obligations.SpecBlocksDecode :=
  ⟨rfl, rfl, rfl, rfl, rfl, rfl, rfl⟩

/-! ### Reserved kind bytes (R60) -/

theorem Kind.ofByte?_reserved {k : Byte} (h : 2 ≤ k.toNat) (h' : k.toNat ≤ 0xFE) : Kind.ofByte? k = none := by
  have hne (kind : Kind) : k ≠ kind.byte := by
    rintro rfl
    cases kind <;> revert h h' <;> decide
  simp only [Kind.ofByte?, hne, if_false]

/-- Settles O5: the decoder reads the sentinels and stops at the kind byte. -/
theorem reservedKindsAreRefused : Obligations.ReservedKindsAreRefused := by
  intro k n rest h h'
  simp [decode, Config.head, Config.sync, Kind.ofByte?_reserved h h']

end Sys2Proof
end

section
/-! PROOFS. The family 30_encoding.md, the acknowledgment line (R62): what stands before the first `NL`. -/

namespace Sys2Proof.Machine

theorem splitLine_cons {b : Byte} (h : b ≠ 0x0A) (bs : List Byte) :
    splitLine (b :: bs) = (splitLine bs).map fun p => (b :: p.1, p.2) := by
  rw [splitLine, if_neg h]
  cases splitLine bs <;> rfl

theorem splitLine_of_mem {content : List Byte} (h : 0x0A ∉ content) (rest : List Byte) :
    splitLine (content ++ 0x0A :: rest) = some (content, rest) := by
  induction content with
  | nil => rfl
  | cons b content ih =>
    obtain ⟨hb, hcontent⟩ := List.ne_and_not_mem_of_not_mem_cons h
    rw [List.cons_append, splitLine_cons (Ne.symm hb), ih hcontent]
    rfl

theorem splitLine_of_not_mem {bs : List Byte} (h : 0x0A ∉ bs) : splitLine bs = none := by
  induction bs with
  | nil => rfl
  | cons b bs ih =>
    obtain ⟨hb, hbs⟩ := List.ne_and_not_mem_of_not_mem_cons h
    rw [splitLine_cons (Ne.symm hb), ih hbs]
    rfl

/-- Settles O21: ACK.LINE answers what stands before the first `NL`. -/
theorem ackLineDecodes : Obligations.AckLineDecodes := by
  refine ⟨?line, ?noLine⟩
  case line =>
    intro content rest s h
    simp only [exec, execAckLine, splitLine_of_mem h]
    rfl
  case noLine =>
    intro bs s h
    simp only [exec, execAckLine, splitLine_of_not_mem h]
    rfl

end Sys2Proof.Machine
end

section
/-! PROOFS. The family 30_encoding.md, UPLOAD with every wait acknowledged (R65, 43_session.md R91): one write with its
wait is two transitions of the session and adds one Block and one echoed line; the Data Blocks follow by induction. -/

namespace Sys2Proof.Machine

/-! ### The sending steps, forwards -/

theorem coreStep_sendStart {s : State} (hs : s.state = .sendingStart) (ho : s.linkOpen = true) :
    coreStep s = .next (((s.pushWrite (startBlock s.startAddr)).advance 0).enterAwait .startAck) := by
  simp only [coreStep, hs, execSessionSendStart, if_true]
  exact sendBlock_open ho (frame_start_be16 s.startAddr) 0 .startAck

theorem coreStep_sendData {s : State} {chunk : List Byte} (hs : s.state = .sendingData) (ho : s.linkOpen = true)
    (hc : s.cursor < s.imgLen) (hchunk : segNext s = .ok (some chunk)) (hpos : 1 ≤ chunk.length)
    (hle : chunk.length ≤ 255) :
    coreStep s = .next (((s.pushWrite (layoutBlock .data chunk)).advance chunk.length).enterAwait .dataAck) := by
  simp only [coreStep, hs, execSessionSendData, hc, Nat.ne_of_lt hc, hchunk, and_self, if_true, if_false]
  exact sendBlock_open ho (frame_data_chunk hpos hle) chunk.length .dataAck

theorem coreStep_noData {s : State} (hs : s.state = .sendingData) (hc : s.cursor = s.imgLen) :
    coreStep s = .next (s.goto .sendingTrailer) := by
  simp only [coreStep, hs, execSessionNoData, hc, and_self, if_true]

theorem coreStep_sendTrailer {s : State} (hs : s.state = .sendingTrailer) (ho : s.linkOpen = true) :
    coreStep s = .next (((s.pushWrite trailerBlock).advance 0).enterAwait .trailerAck) := by
  simp only [coreStep, hs, execSessionSendTrailer, if_true]
  exact sendBlock_open ho frame_trailer_nil 0 .trailerAck

/-! ### Writes that have all been acknowledged -/

/-- From `s` to `t` the core has made the writes `ws` and each has been acknowledged: one echoed line for each, and the
latched inputs, the Image and the Link as they were. -/
structure AckedWrites (ws : List (List Byte)) (s t : State) : Prop where
  start_addr : t.startAddr = s.startAddr
  img_len : t.imgLen = s.imgLen
  timeout_ms : t.timeoutMs = s.timeoutMs
  img : t.img = s.img
  device : t.linkDevice = s.linkDevice
  baud : t.linkBaud = s.linkBaud
  link_open : t.linkOpen = s.linkOpen
  err : t.err = s.err
  txlog : t.txlog = s.txlog ++ ws
  wire : t.wire = s.wire ++ ws.flatten
  diag : t.diag.length = s.diag.length + ws.length

theorem AckedWrites.nil (s : State) : AckedWrites [] s s := by
  constructor <;> simp

theorem AckedWrites.append {ws vs : List (List Byte)} {s t u : State} (h : AckedWrites ws s t)
    (k : AckedWrites vs t u) : AckedWrites (ws ++ vs) s u where
  start_addr := k.start_addr.trans h.start_addr
  img_len := k.img_len.trans h.img_len
  timeout_ms := k.timeout_ms.trans h.timeout_ms
  img := k.img.trans h.img
  device := k.device.trans h.device
  baud := k.baud.trans h.baud
  link_open := k.link_open.trans h.link_open
  err := k.err.trans h.err
  txlog := by rw [k.txlog, h.txlog, List.append_assoc]
  wire := by rw [k.wire, h.wire, List.flatten_append, List.append_assoc]
  diag := by rw [k.diag, h.diag, List.length_append, Nat.add_assoc]

/-- Without a write in between, the control transfer keeps them (R85). -/
theorem AckedWrites.goto {ws : List (List Byte)} {s t : State} (h : AckedWrites ws s t) (st : SessionState) :
    AckedWrites ws s (t.goto st) :=
  { h with }

/-- Wait `i` of a session ends in an acknowledgment. -/
def AcksAt (timeoutMs : Word16) (waits : List WaitPlay) (i : Nat) : Prop :=
  ∃ p, waits[i]? = some p ∧ p.acknowledges timeoutMs

theorem acksAt_of_take {v : Word16} {waits : List WaitPlay} {n i : Nat} (hlen : n ≤ waits.length)
    (h : ∀ p ∈ waits.take n, p.acknowledges v) (hi : i < n) : AcksAt v waits i :=
  ⟨waits[i], List.getElem?_eq_getElem (by omega), h _ (List.mem_take_iff_getElem.2 ⟨i, by omega, rfl⟩)⟩

/-- One write and its wait, acknowledged in time: two transitions of the session. -/
theorem session_ackedWrite {s : State} {bs : List Byte} {n : Nat} {w : Wait} {waits : List WaitPlay} {i : Nat}
    (hsend : s.state.isSending = true) (ho : s.linkOpen = true)
    (hstep : coreStep s = .next (((s.pushWrite bs).advance n).enterAwait w)) (hack : AcksAt s.timeoutMs waits i)
    (fuel : Nat) :
    ∃ t, session (fuel + 2) (waits.drop i) s = session fuel (waits.drop (i + 1)) t ∧ AckedWrites [bs] s t ∧
      t.state = w.next ∧ t.cursor = s.cursor + n ∧ t.rxbuf = [] := by
  obtain ⟨p, hp, hpack⟩ := hack
  obtain ⟨t, hplay, hframe, -, hacked, -⟩ :=
    playWait_ends p (s := ((s.pushWrite bs).advance n).enterAwait w) (w := w) rfl ho rfl rfl
  have hacked := hacked hpack
  have hhead : (waits.drop i).headD { line := [], ticks := 0 } = p := by
    rw [List.headD_eq_head?_getD, List.head?_drop, hp]; rfl
  refine ⟨t, ?_, ?_, hacked.state, hframe.cursor, hacked.rxbuf⟩
  · rw [session_send hsend hstep, session_wait (SessionState.isAwaiting_session w) (hhead.symm ▸ hplay),
      List.tail_drop]
  · exact
      { start_addr := hframe.start_addr, img_len := hframe.img_len, timeout_ms := hframe.timeout_ms, img := hframe.img
        device := hframe.device, baud := hframe.baud, link_open := hacked.link_open.trans ho.symm, err := hacked.err
        txlog := hframe.txlog, wire := by simpa using hframe.wire, diag := hacked.diag }

/-! ### The Data Blocks -/

theorem chunkAt_length (image : List Byte) (k : Nat) : (chunkAt image k).length = min 255 (image.length - 255 * k) := by
  rw [chunkAt, List.length_take, List.length_drop]

theorem mul_lt_of_lt_chunkCount {k n : Nat} (h : k < chunkCount n) : 255 * k < n := by
  unfold chunkCount at h; omega

/-- The last chunk ends at the end of the Image. -/
theorem min_mul_chunkCount (n : Nat) : min (255 * chunkCount n) n = n := by
  unfold chunkCount; omega

/-- With `cursor` at the start of chunk `k` that chunk is what `seg_next` answers (R76, R77). -/
theorem segNext_chunkAt {image : List Byte} {k : Nat} {s : State} (himg : s.img = Memory.ofBytes image)
    (hlen : s.imgLen = image.length) (hc : s.cursor = 255 * k) (hk : k < chunkCount image.length) :
    segNext s = .ok (some (chunkAt image k)) := by
  have hlt := mul_lt_of_lt_chunkCount hk
  obtain ⟨chunk, hseg, -, hread⟩ := segNext_chunk (s := s) (by omega) (fun i hi => by
    rw [himg, Memory.read_ofBytes, List.getElem?_eq_getElem (hlen ▸ hi)]; rfl)
  have hrest := chunkSize_le_rest image.length (255 * k)
  rw [himg, hlen, hc, Memory.readMany_ofBytes _ _ _ (by omega)] at hread
  rw [hseg, ← Option.some.inj hread, chunkAt, chunkSize, List.take_eq_take_min (i := 255), List.length_drop]

theorem dataBlocks_succ (image : List Byte) (k : Nat) :
    dataBlocks image (k + 1) = dataBlocks image k ++ [layoutBlock .data (chunkAt image k)] := by
  simp [dataBlocks, List.range_succ]

/-- The first `k` Data Blocks of a run, each acknowledged, the first of them in wait `j`. -/
theorem session_dataBlocks {image : List Byte} {s : State} (hs : s.state = .sendingData) (ho : s.linkOpen = true)
    (himg : s.img = Memory.ofBytes image) (hlen : s.imgLen = image.length) (hc : s.cursor = 0)
    {waits : List WaitPlay} {j k : Nat} (hk : k ≤ chunkCount image.length)
    (hack : ∀ i < k, AcksAt s.timeoutMs waits (j + i)) (fuel : Nat) :
    ∃ t, session (fuel + 2 * k) (waits.drop j) s = session fuel (waits.drop (j + k)) t ∧
      AckedWrites (dataBlocks image k) s t ∧ t.state = .sendingData ∧ t.cursor = min (255 * k) image.length := by
  induction k generalizing fuel with
  | zero => exact ⟨s, rfl, AckedWrites.nil s, hs, by simp [hc]⟩
  | succ k ih =>
    obtain ⟨t, hrun, ht, hts, htc⟩ := ih (by omega) (fun i hi => hack i (by omega)) (fuel + 2)
    have hlt := mul_lt_of_lt_chunkCount hk
    have hchunk := chunkAt_length image k
    have htc : t.cursor = 255 * k := by omega
    have hstep := coreStep_sendData hts (ht.link_open.trans ho) (by rw [ht.img_len]; omega)
      (segNext_chunkAt (ht.img.trans himg) (ht.img_len.trans hlen) htc hk) (by omega) (by omega)
    obtain ⟨u, hround, hu, hus, huc, -⟩ := session_ackedWrite (by rw [hts]; rfl) (ht.link_open.trans ho) hstep
      (ht.timeout_ms ▸ hack k (by omega)) fuel
    refine ⟨u, ?_, dataBlocks_succ image k ▸ ht.append hu, hus, by rw [huc]; omega⟩
    rw [show fuel + 2 * (k + 1) = fuel + 2 + 2 * k by omega, hrun, hround, Nat.add_assoc]

/-! ### The whole session -/

theorem chunkCount_le (n : Nat) : chunkCount n ≤ n := by
  unfold chunkCount; omega

theorem fullWrites_length (startAddr : Word16) (image : List Byte) :
    (fullWrites startAddr image).length = 1 + chunkCount image.length + 1 := by
  simp [fullWrites, dataBlocks, Nat.add_comm]

/-- A session with every wait acknowledged ends in `Done` with all of W written. -/
theorem session_allAcked {image : List Byte} {s : State} (hs : s.state = .sendingStart) (ho : s.linkOpen = true)
    (himg : s.img = Memory.ofBytes image) (hlen : s.imgLen = image.length) (hc : s.cursor = 0)
    {waits : List WaitPlay} (hack : ∀ i < chunkCount image.length + 2, AcksAt s.timeoutMs waits i) :
    ∃ t, session (2 * image.length + 6) waits s = .next t ∧ AckedWrites (fullWrites s.startAddr image) s t ∧
      t.state = .done ∧ t.cursor = image.length ∧ t.rxbuf = [] := by
  obtain ⟨fuel, hfuel⟩ : ∃ fuel, 2 * image.length + 6 = fuel + 2 + 1 + 2 * chunkCount image.length + 2 :=
    ⟨2 * image.length + 1 - 2 * chunkCount image.length, by have := chunkCount_le image.length; omega⟩
  obtain ⟨t, hstart, ht, hts, htc, -⟩ := session_ackedWrite (by rw [hs]; rfl) ho (coreStep_sendStart hs ho)
    (hack 0 (by omega)) (fuel + 2 + 1 + 2 * chunkCount image.length)
  obtain ⟨u, hdata, hu, hus, huc⟩ := session_dataBlocks hts (ht.link_open.trans ho) (ht.img.trans himg)
    (ht.img_len.trans hlen) (htc.trans hc) (waits := waits) (j := 1) (Nat.le_refl _)
    (fun i hi => ht.timeout_ms ▸ hack (1 + i) (by omega)) (fuel + 2 + 1)
  have hend : u.cursor = image.length := huc.trans (min_mul_chunkCount _)
  have hsu := (ht.append hu).goto .sendingTrailer
  have hou := hsu.link_open.trans ho
  have hnoData := coreStep_noData hus (hend.trans (hlen.symm.trans hsu.img_len.symm))
  obtain ⟨r, htrailer, hr, hrs, hrc, hrb⟩ := session_ackedWrite rfl hou (coreStep_sendTrailer rfl hou)
    (hsu.timeout_ms ▸ hack (1 + chunkCount image.length) (by omega)) fuel
  refine ⟨r, ?_, ?_, hrs, hrc.trans hend, hrb⟩
  · calc session (2 * image.length + 6) waits s
      _ = session (fuel + 2 + 1 + 2 * chunkCount image.length) (waits.drop 1) t := hfuel ▸ hstart
      _ = session (fuel + 2 + 1) (waits.drop (1 + chunkCount image.length)) u := hdata
      _ = session (fuel + 2) (waits.drop (1 + chunkCount image.length)) (u.goto .sendingTrailer) :=
        session_send (by rw [hus]; rfl) hnoData
      _ = session fuel (waits.drop (1 + chunkCount image.length + 1)) r := htrailer
      _ = .next r := session_end (.inl hrs)
  · exact hsu.append hr

/-- Settles O50: the start command is taken, and the session it begins is acknowledged throughout. -/
theorem uploadSendsTheWholeImage : Obligations.UploadSendsTheWholeImage := by
  intro a v image waits s hs ho hlen hack
  obtain ⟨t, hrun, ht, hts, htc, htb⟩ := session_allAcked (s := (s.loadImage image).latchStart a image.length v)
    (image := image) rfl ho rfl rfl rfl fun i hi => acksAt_of_take hlen hack hi
  have hexec : exec (.upload a v image waits) s = .next t := by
    simp only [exec, execUpload, execHostStart, State.loadImage_state, State.loadImage_linkOpen, hs, ho, and_self,
      if_true, Result.andThen_next, hrun]
  refine ⟨t, hexec, hts, htc, ht.txlog, fullWrites_length a image, ht.wire, ht.link_open.trans ho, ht.err, htb, ?_,
    ht.start_addr, ht.img_len, ht.timeout_ms, ht.img, ht.device, ht.baud⟩
  rw [ht.diag, State.latchStart_startAddr, fullWrites_length]
  simp only [State.latchStart_diag, State.loadImage_diag, chunkCount]
  omega

end Sys2Proof.Machine
end

section
/-! PROOFS. The family 40_checksum.md: the checksum is the sum of the bytes modulo 256 (R67), and its laws (R68). -/

namespace Sys2Proof.Machine

/-! ### The sum modulo 256 -/

/-- R67: each carry that the 8-bit addition discards is a multiple of 256. -/
theorem checksum_eq_ofNat_sum (bs : List Byte) : checksum bs = BitVec.ofNat 8 (bs.map BitVec.toNat).sum := by
  induction bs with
  | nil => rfl
  | cons b bs ih =>
    rw [checksum_cons, ih, List.map_cons, List.sum_cons, BitVec.ofNat_add, BitVec.ofNat_toNat, BitVec.setWidth_eq]

theorem exec_checksum (bs : List Byte) (s : State) :
    exec (.checksum bs) s = .next (s.answering (.byte (checksum bs))) := rfl

/-- Settles O6: the operation answers the checksum, and the byte of a sum is the byte of its remainder modulo 256. -/
theorem checksumIsTheSumModulo256 : Obligations.ChecksumIsTheSumModulo256 := by
  intro bs s
  have hmod (n : Nat) : BitVec.ofNat 8 (n % 256) = BitVec.ofNat 8 n :=
    BitVec.eq_of_toNat_eq (Nat.mod_mod n 256)
  rw [exec_checksum, checksum_eq_ofNat_sum, hmod]
  rfl

/-! ### The laws -/

theorem checksum_append (a b : List Byte) : checksum (a ++ b) = checksum a + checksum b :=
  (checksumFrom_append 0 a b).trans (checksumFrom_eq (checksum a) b)

theorem checksum_singleton (x : Byte) : checksum [x] = x := by
  rw [checksum_cons, checksum_nil]
  exact BitVec.add_zero x

theorem checksum_perm {a b : List Byte} (h : a.Perm b) : checksum a = checksum b := by
  rw [checksum_eq_ofNat_sum, checksum_eq_ofNat_sum, (h.map BitVec.toNat).sum_eq]

/-- A byte more, wherever it stands, adds itself to the sum. -/
theorem checksum_insert (a b : List Byte) (x : Byte) : checksum (a ++ x :: b) = checksum (a ++ b) + x := by
  rw [checksum_perm List.perm_middle, checksum_cons, BitVec.add_comm]

/-- One byte changed by `d`, wherever it stands, changes the sum by `d`. -/
theorem checksum_change (a b : List Byte) (x d : Byte) :
    checksum (a ++ (x + d) :: b) = checksum (a ++ x :: b) + d := by
  rw [checksum_insert, checksum_insert, BitVec.add_assoc]

/-- Two changes that cancel keep the sum: each side is the sum with `x` and `y - d`, plus `d`. -/
theorem checksum_cancelling_changes (a m b : List Byte) (x y d : Byte) :
    checksum (a ++ (x + d) :: (m ++ (y - d) :: b)) = checksum (a ++ x :: (m ++ y :: b)) := by
  have hregroup (z : Byte) : a ++ x :: (m ++ z :: b) = (a ++ x :: m) ++ z :: b := by simp
  calc checksum (a ++ (x + d) :: (m ++ (y - d) :: b))
    _ = checksum (a ++ x :: (m ++ (y - d) :: b)) + d := checksum_change ..
    _ = checksum ((a ++ x :: m) ++ (y - d + d) :: b) := by rw [hregroup, checksum_change]
    _ = checksum (a ++ x :: (m ++ y :: b)) := by rw [BitVec.sub_add_cancel, hregroup]

/-- Settles O7: each law by its lemma; a sum that changes by a nonzero byte differs. -/
theorem checksumLaws : Obligations.ChecksumLaws := by
  have hdiffers (c : Byte) {d : Byte} (hd : d ≠ 0) : c + d ≠ c := mt BitVec.add_right_eq_self.1 hd
  refine ⟨checksum_nil, checksum_append, checksum_singleton, fun _ _ => checksum_perm, ?oneMore, ?changed,
    checksum_cancelling_changes⟩
  case oneMore =>
    intro a b x hx
    rw [checksum_insert]
    exact hdiffers _ hx
  case changed =>
    intro a b x d
    rw [checksum_change]
    exact ⟨rfl, hdiffers _⟩

end Sys2Proof.Machine
end

section
/-! PROOFS. The family 41_framer.md: each FRAME operation answers the Block of its payload where the kind allows the
length, `InvalidPayloadSize` where it does not, and changes nothing else (R71 to R75, R118). -/

namespace Sys2Proof.Machine

/-! ### A function's answer (R71) -/

/-- Settles O41: a function leaves the state with an answer put in it, and that writes the field `answer` alone. -/
theorem functionsOnlyAnswer : Obligations.FunctionsOnlyAnswer := by
  intro i s t hf h
  exact exec_function hf h

/-! ### The answer of a request, by the length of its payload -/

theorem frame_of_illegalLen {kind : Kind} {payload : List Byte} (h : kind.legalLen payload.length = false) :
    frame kind payload = none := by
  simp [frameIsTheWireLayout kind payload, h]

theorem framerAnswer_of_legalLen {kind : Kind} {payload : List Byte} (h : kind.legalLen payload.length = true) :
    framerAnswer kind payload = .block (layoutBlock kind payload) := by
  simp [framerAnswer, frameIsTheWireLayout kind payload, h]

theorem framerAnswer_of_illegalLen {kind : Kind} {payload : List Byte} (h : kind.legalLen payload.length = false) :
    framerAnswer kind payload = .invalidPayloadSize := by
  simp only [framerAnswer, frame_of_illegalLen h]

/-! ### The FRAME operations -/

theorem exec_frameStart (payload : List Byte) (s : State) :
    exec (.frameStart payload) s = .next (s.answering (framerAnswer .start payload)) := rfl

theorem exec_frameData (payload : List Byte) (s : State) :
    exec (.frameData payload) s = .next (s.answering (framerAnswer .data payload)) := rfl

theorem exec_frameTrailer (payload : List Byte) (s : State) :
    exec (.frameTrailer payload) s = .next (s.answering (framerAnswer .trailer payload)) := rfl

theorem exec_frameInvalid (kind : Kind) (payload : List Byte) (s : State) :
    exec (.frameInvalid kind payload) s = .next (s.answering (framerAnswer kind payload)) := rfl

/-! ### The checksum byte of a Block (R57) -/

/-- From the accumulator 0 the kind byte 0x00 adds nothing and the length byte adds 2. -/
theorem blockChecksum_start (p0 p1 : Byte) : blockChecksum .start [p0, p1] = 0x02 + p0 + p1 :=
  calc blockChecksum .start [p0, p1]
    _ = 0x00 + 0x00 + 0x02 + p0 + p1 := rfl
    _ = 0x02 + p0 + p1 := rfl

/-- The kind byte adds 1 and the length byte adds the length. -/
theorem blockChecksum_data (payload : List Byte) :
    blockChecksum .data payload = BitVec.ofNat 8 (1 + payload.length + (payload.map BitVec.toNat).sum) :=
  calc blockChecksum .data payload
    _ = Kind.data.byte + (lenByte payload.length + checksum payload) :=
      (checksum_cons ..).trans (congrArg (Kind.data.byte + ·) (checksum_cons ..))
    _ = BitVec.ofNat 8 1 + BitVec.ofNat 8 payload.length + BitVec.ofNat 8 (payload.map BitVec.toNat).sum := by
      rw [checksum_eq_ofNat_sum, ← BitVec.add_assoc]
      rfl
    _ = BitVec.ofNat 8 (1 + payload.length + (payload.map BitVec.toNat).sum) := by
      rw [BitVec.ofNat_add, BitVec.ofNat_add]

/-! ### The three legal requests (R72 to R74) -/

/-- Settles O8: two bytes are the one length START allows. -/
theorem frameStartAnswers : Obligations.FrameStartAnswers := by
  refine ⟨?twoBytes, ?otherLength⟩
  case twoBytes =>
    intro p0 p1 s
    rw [exec_frameStart, framerAnswer_of_legalLen rfl, ← blockChecksum_start]
    rfl
  case otherLength =>
    intro payload s hlen
    have hillegal := Bool.eq_false_iff.2 (mt (Kind.legalLen_start _).1 hlen)
    rw [exec_frameStart, framerAnswer_of_illegalLen hillegal]
    rfl

/-- Settles O9: 1 to 255 bytes are the lengths DATA allows. -/
theorem frameDataAnswers : Obligations.FrameDataAnswers := by
  refine ⟨?chunk, ?otherLength⟩
  case chunk =>
    intro payload s hpos hle
    rw [exec_frameData, framerAnswer_of_legalLen ((Kind.legalLen_data _).2 ⟨hpos, hle⟩), ← blockChecksum_data]
    rfl
  case otherLength =>
    intro payload s hlen
    have hout : ¬ (1 ≤ payload.length ∧ payload.length ≤ 255) := by omega
    have hillegal := Bool.eq_false_iff.2 (mt (Kind.legalLen_data _).1 hout)
    rw [exec_frameData, framerAnswer_of_illegalLen hillegal]
    rfl

/-- Settles O10: the empty payload is the one TRAILER allows, and its checksum byte is the constant 0x00. -/
theorem frameTrailerAnswers : Obligations.FrameTrailerAnswers := by
  refine ⟨?empty, ?otherPayload⟩
  case empty =>
    intro s
    rw [exec_frameTrailer, framerAnswer_of_legalLen rfl]
    rfl
  case otherPayload =>
    intro payload s hne
    have hlen : payload.length ≠ 0 := mt List.length_eq_zero_iff.1 hne
    have hillegal := Bool.eq_false_iff.2 (mt (Kind.legalLen_trailer _).1 hlen)
    rw [exec_frameTrailer, framerAnswer_of_illegalLen hillegal]
    rfl

/-! ### The illegal request (R75, R118) -/

/-- Between Blocks the stand-alone Framer offers no byte and raises nothing, in reset or not. -/
@[simp] theorem FramerUnit.ports_idle (c : FramerIn) :
    FramerUnit.idle.ports c = { tx := none, frInvalid := false } := by
  cases hrst : c.rst <;> simp [FramerUnit.ports, hrst]

/-- With no Block in progress the stand-alone Framer takes up what the cycle asks for (log entry 34). -/
theorem FramerUnit.cycle_of_not_sending {u : FramerUnit} (hu : u = .idle ∨ u = .invalid) {c : FramerIn}
    (hc : c.rst = false) : u.cycle c = FramerUnit.take c.request := by
  obtain rfl | rfl := hu
  · exact FramerUnit.cycle_idle hc
  · exact FramerUnit.cycle_invalid hc

/-- Settles O11: the length is illegal, so the operation answers `InvalidPayloadSize`; at the ports the request leads to
the cycle of `fr_invalid`, and a cycle without a request leads from there to `idle`. -/
theorem frameInvalidAnswers : Obligations.FrameInvalidAnswers := by
  intro kind payload hwf
  obtain ⟨hillegal, -⟩ : kind.legalLen payload.length = false ∧ payload.length ≤ 511 := by
    simpa [Instr.wellFormed] using hwf
  refine ⟨?answer, ?ports⟩
  case answer =>
    intro s
    refine ⟨s.answering .invalidPayloadSize, ?_, rfl, rfl⟩
    rw [exec_frameInvalid, framerAnswer_of_illegalLen hillegal]
  case ports =>
    intro c d e u hu hc hd hreq hnone
    have hraised : u.cycle c = .invalid :=
      calc u.cycle c
        _ = FramerUnit.take c.request := FramerUnit.cycle_of_not_sending hu hc
        _ = FramerUnit.accept kind payload := congrArg FramerUnit.take hreq
        _ = .invalid := FramerUnit.accept_invalid (frame_of_illegalLen hillegal)
    have hover : FramerUnit.invalid.cycle d = .idle :=
      (FramerUnit.cycle_invalid hd).trans (congrArg FramerUnit.take hnone)
    rw [hraised, hover]
    exact ⟨FramerUnit.ports_invalid hd, FramerUnit.ports_idle e⟩

end Sys2Proof.Machine
end

section
/-! PROOFS. The family 42_segmenter.md: what SEG.NEXT answers (R76), and that the chunks from `cursor` 0 on are the
slices of 255 bytes that make up the Image (R77). -/

namespace Sys2Proof.Machine

/-! ### SEG.NEXT (R76) -/

theorem exec_segNext_of_ok {s : State} {c : Option (List Byte)} (h : segNext s = .ok c) :
    exec .segNext s = .next (s.answering (.chunk c)) := by
  simp only [exec, execSegNext, h]

/-- Settles O13: at the end `seg_next` answers none, below it the bytes `Memory.readMany` gives. -/
theorem segNextAnswers : Obligations.SegNextAnswers := by
  refine ⟨?atEnd, ?below⟩
  case atEnd =>
    intro s hend
    exact exec_segNext_of_ok (segNext_end hend)
  case below =>
    intro s hlt hheld
    obtain ⟨chunk, hseg, hlen, hread⟩ := segNext_chunk hlt hheld
    obtain ⟨-, hbytes⟩ := Memory.readMany_spec hread
    exact ⟨chunk, exec_segNext_of_ok hseg, hlen, fun j hj => hbytes j (hlen ▸ hj)⟩

/-! ### The chunks of a run of SEG.NEXT (R77) -/

theorem chunksFrom_of_none {s : State} (h : segNext s = .ok none) (fuel : Nat) : chunksFrom fuel s = [] := by
  cases fuel with
  | zero => rfl
  | succ fuel => simp only [chunksFrom, h]

theorem chunksFrom_of_some {s : State} {c : List Byte} (h : segNext s = .ok (some c)) (fuel : Nat) :
    chunksFrom (fuel + 1) s = c :: chunksFrom fuel (s.advance c.length) := by
  simp only [chunksFrom, h]

/-- With `cursor` after the first `k` chunks and `n` still to come, the chunks from there on are `k` to `k + n - 1`. -/
theorem chunksFrom_eq_map_range' {image : List Byte} {n k fuel : Nat} {s : State}
    (himg : s.img = Memory.ofBytes image) (hlen : s.imgLen = image.length)
    (hc : s.cursor = min (255 * k) image.length) (hn : k + n = chunkCount image.length) (hfuel : n < fuel) :
    chunksFrom fuel s = (List.range' k n).map (chunkAt image) := by
  induction n generalizing k fuel s with
  | zero =>
    obtain rfl : k = chunkCount image.length := hn
    have hend : s.cursor = s.imgLen := by rw [hc, hlen, min_mul_chunkCount]
    exact chunksFrom_of_none (segNext_end hend) fuel
  | succ n ih =>
    obtain ⟨fuel, rfl⟩ : ∃ f, fuel = f + 1 := ⟨fuel - 1, by omega⟩
    have hk : k < chunkCount image.length := by omega
    have hlt := mul_lt_of_lt_chunkCount hk
    have hseg := segNext_chunkAt himg hlen (by omega) hk
    have hnext : s.cursor + (chunkAt image k).length = min (255 * (k + 1)) image.length := by
      rw [chunkAt_length]; omega
    rw [chunksFrom_of_some hseg, List.range'_succ, List.map_cons,
      ih (s := s.advance _) himg hlen hnext (by omega) (by omega)]

/-- From `cursor` 0 the chunks are `0` to `chunkCount - 1`; one step per Image byte and one more is fuel enough. -/
theorem chunksFrom_start {image : List Byte} {s : State} (himg : s.img = Memory.ofBytes image)
    (hlen : s.imgLen = image.length) (hc : s.cursor = 0) :
    chunksFrom (image.length + 1) s = (List.range (chunkCount image.length)).map (chunkAt image) := by
  have hfuel := Nat.lt_succ_of_le (chunkCount_le image.length)
  rw [List.range_eq_range']
  exact chunksFrom_eq_map_range' himg hlen (by rw [hc]; omega) (Nat.zero_add _) hfuel

/-! ### The chunks as slices of the Image (R77) -/

theorem flatten_map_chunkAt_range (image : List Byte) (k : Nat) :
    ((List.range k).map (chunkAt image)).flatten = image.take (255 * k) := by
  induction k with
  | zero => rfl
  | succ k ih => simp [List.range_succ, ih, chunkAt, Nat.mul_succ, List.take_add]

/-- All the chunks together reach to the end of the Image. -/
theorem flatten_chunks (image : List Byte) :
    ((List.range (chunkCount image.length)).map (chunkAt image)).flatten = image := by
  have hreach := min_mul_chunkCount image.length
  rw [flatten_map_chunkAt_range, List.take_of_length_le (by omega)]

theorem chunkAt_length_bounds {image : List Byte} {i : Nat} (h : i < chunkCount image.length) :
    1 ≤ (chunkAt image i).length ∧ (chunkAt image i).length ≤ 255 := by
  have hlt := mul_lt_of_lt_chunkCount h
  rw [chunkAt_length]
  omega

/-- A chunk with one after it is full, since the next one starts inside the Image. -/
theorem chunkAt_length_of_not_last {image : List Byte} {i : Nat} (h : i + 1 < chunkCount image.length) :
    (chunkAt image i).length = 255 := by
  have hlt := mul_lt_of_lt_chunkCount h
  rw [chunkAt_length]
  omega

/-- Settles O14: the chunks are the slices `chunkAt image i`, whose lengths and join the lemmas above give. -/
theorem chunksRebuildTheImage : Obligations.ChunksRebuildTheImage := by
  intro image s himg hlen hc
  rw [chunksFrom_start himg hlen hc]
  refine ⟨rfl, flatten_chunks image, ?bounds, ?full⟩
  case bounds =>
    intro c hmem
    obtain ⟨i, hi, rfl⟩ := List.mem_map.1 hmem
    exact chunkAt_length_bounds (List.mem_range.1 hi)
  case full =>
    intro i c hget hlast
    have hi : i < chunkCount image.length := Nat.lt_of_succ_lt hlast
    rw [List.getElem?_map, List.getElem?_range hi] at hget
    obtain rfl : chunkAt image i = c := Option.some.inj hget
    exact chunkAt_length_of_not_last hlast

end Sys2Proof.Machine
end

section
/-! PROOFS. The family 43_session.md, the history of a run (R91, R92): what a sending step, an acknowledgment and a
timeout make of it, and that every step of an agent but reset keeps it. -/

namespace Sys2Proof

@[simp] theorem Wait.isAwaiting_sender (w : Wait) : w.sender.isAwaiting = false := by cases w <;> rfl

@[simp] theorem Wait.isSending_sender (w : Wait) : w.sender.isSending = true := by cases w <;> rfl

@[simp] theorem Wait.isAwaiting_next (w : Wait) : w.next.isAwaiting = false := by cases w <;> rfl

@[simp] theorem Wait.sender_ne_failed (w : Wait) : w.sender ≠ .failed := by cases w <;> decide

@[simp] theorem Wait.next_ne_failed (w : Wait) : w.next ≠ .failed := by cases w <;> decide

end Sys2Proof

namespace Sys2Proof.Machine

/-! ### A run that goes on -/

theorem State.busy_of_session {s : State} {w : Wait} (hw : s.state = w.session) : s.busy = true := by
  cases w <;> simp [State.busy, hw, Wait.session]

theorem State.busy_of_sender {s : State} {w : Wait} (hw : s.state = w.sender) : s.busy = true := by
  cases w <;> simp [State.busy, hw, Wait.sender]

theorem State.busy_eq_false_iff (s : State) :
    s.busy = false ↔ s.state = .idle ∨ s.state = .done ∨ s.state = .failed := by
  cases hs : s.state <;> simp [State.busy, hs]

/-- A run that goes on stands before a wait or in it. -/
theorem State.exists_wait_of_busy {s : State} (hb : s.busy = true) :
    ∃ w : Wait, s.state = w.sender ∨ s.state = w.session := by
  cases hs : s.state with
  | idle | done | failed => simp [State.busy, hs] at hb
  | sendingStart => exact ⟨.startAck, .inl rfl⟩
  | awaitingStartAck => exact ⟨.startAck, .inr rfl⟩
  | sendingData => exact ⟨.dataAck, .inl rfl⟩
  | awaitingDataAck => exact ⟨.dataAck, .inr rfl⟩
  | sendingTrailer => exact ⟨.trailerAck, .inl rfl⟩
  | awaitingTrailerAck => exact ⟨.trailerAck, .inr rfl⟩

/-! ### W, write by write (R91) -/

theorem fullWrites_getElem?_start (a : Word16) (image : List Byte) :
    (fullWrites a image)[0]? = some (startBlock a) := rfl

theorem fullWrites_getElem?_data (a : Word16) {image : List Byte} {k : Nat} (h : k < chunkCount image.length) :
    (fullWrites a image)[k + 1]? = some (layoutBlock .data (chunkAt image k)) := by
  rw [fullWrites, List.getElem?_cons_succ, List.getElem?_append_left (by simpa [dataBlocks] using h)]
  simp [dataBlocks, h]

theorem fullWrites_getElem?_trailer (a : Word16) (image : List Byte) :
    (fullWrites a image)[chunkCount image.length + 1]? = some trailerBlock := by
  simp [fullWrites, dataBlocks]

/-! ### The number of writes made, by the state of the run -/

section
variable {image : List Byte} {m : Nat} {s t : State}

/-- An acknowledgment leaves the number of writes (R87). -/
theorem State.writesMade_acked {w : Wait} (hw : s.state = w.session) (ht : t.state = w.next)
    (hc : t.cursor = s.cursor) (h : s.writesMade image m) : t.writesMade image m := by
  cases w with
  | startAck =>
    simp only [State.writesMade, hw, Wait.session] at h
    simp only [State.writesMade, ht, Wait.next, hc]
    exact ⟨0, Nat.zero_le _, by simp [h.2], h.1⟩
  | dataAck =>
    simp only [State.writesMade, hw, Wait.session] at h
    simp only [State.writesMade, ht, Wait.next, hc]
    obtain ⟨k, -, hk⟩ := h
    exact ⟨k, hk⟩
  | trailerAck =>
    simp only [State.writesMade, hw, Wait.session] at h
    simpa only [State.writesMade, ht, Wait.next, hc] using h

/-- A wait stands after the first write and not after more than all of them, so a timeout does too. -/
theorem State.writesMade_timedOut {w : Wait} (hw : s.state = w.session) (ht : t.state = .failed)
    (h : s.writesMade image m) : t.writesMade image m := by
  cases w <;> simp only [State.writesMade, hw, Wait.session] at h <;> simp only [State.writesMade, ht] <;> omega

end

/-! ### What keeps a history -/

section
variable {a : Word16} {image : List Byte} {before : List (List Byte)} {echoed : Nat} {s t : State}

/-- An accepted start command begins a history (R110). -/
theorem RunHistory.latchStart (himg : s.img = Memory.ofBytes image) (ho : s.linkOpen = true) (v : Word16) :
    RunHistory a image s.txlog s.diag.length (s.latchStart a image.length v) where
  start_addr := rfl
  img_len := rfl
  held := fun _ => himg
  link_open := fun _ => ho
  writes := ⟨0, ⟨rfl, rfl⟩, by simp, by simp [SessionState.isAwaiting, SessionState.wait?]⟩

/-- A run with a history has left `Idle`. -/
theorem RunHistory.not_idle (h : RunHistory a image before echoed s) : s.state ≠ .idle := by
  intro hidle
  obtain ⟨m, hm, -⟩ := h.writes
  simp [State.writesMade, hidle] at hm

/-- The registers, the log and the echo are the same, and a run going on has the same Image and Link. -/
theorem RunHistory.congr (h : RunHistory a image before echoed s) (hstate : t.state = s.state)
    (haddr : t.startAddr = s.startAddr) (hlen : t.imgLen = s.imgLen) (hcursor : t.cursor = s.cursor)
    (htxlog : t.txlog = s.txlog) (hdiag : t.diag = s.diag) (himg : s.busy = true → t.img = s.img)
    (hlink : s.busy = true → t.linkOpen = s.linkOpen) : RunHistory a image before echoed t := by
  have hbusy : t.busy = s.busy := by rw [State.busy, hstate, State.busy]
  exact
    { start_addr := haddr.trans h.start_addr
      img_len := hlen.trans h.img_len
      held := fun hb => (himg (hbusy ▸ hb)).trans (h.held (hbusy ▸ hb))
      link_open := fun hb => (hlink (hbusy ▸ hb)).trans (h.link_open (hbusy ▸ hb))
      writes := by simpa only [State.writesMade, hstate, hcursor, htxlog, hdiag] using h.writes }

/-- A sending step adds the next write of W and opens its wait (R83, R84, R86). -/
theorem RunHistory.send {w : Wait} {bs : List Byte} {n : Nat} (h : RunHistory a image before echoed s)
    (hw : s.state = w.sender)
    (hnext : ∀ m, s.writesMade image m → (fullWrites a image)[m]? = some bs ∧
      (((s.pushWrite bs).advance n).enterAwait w).writesMade image (m + 1)) :
    RunHistory a image before echoed (((s.pushWrite bs).advance n).enterAwait w) where
  start_addr := h.start_addr
  img_len := h.img_len
  held := fun _ => h.held (State.busy_of_sender hw)
  link_open := fun _ => h.link_open (State.busy_of_sender hw)
  writes := by
    obtain ⟨m, hm, hlog, hdiag⟩ := h.writes
    obtain ⟨hbs, hm'⟩ := hnext m hm
    refine ⟨m + 1, hm', ?_, ?_⟩
    · simp [hlog, List.take_add_one, hbs]
    · simp only [hw, Wait.isAwaiting_sender, Wait.sender_ne_failed] at hdiag
      simp at hdiag ⊢
      omega

/-- With no chunk left all the Data Blocks are written (R85). -/
theorem RunHistory.noData (h : RunHistory a image before echoed s) (hs : s.state = .sendingData)
    (hc : s.cursor = s.imgLen) : RunHistory a image before echoed (s.goto .sendingTrailer) where
  start_addr := h.start_addr
  img_len := h.img_len
  held := fun _ => h.held (by simp [State.busy, hs])
  link_open := fun _ => h.link_open (by simp [State.busy, hs])
  writes := by
    obtain ⟨m, hm, hlog, hdiag⟩ := h.writes
    simp only [State.writesMade, hs] at hm
    obtain ⟨k, hk, hck, rfl⟩ := hm
    have hlen := h.img_len
    have hall : k = chunkCount image.length := by unfold chunkCount at *; omega
    refine ⟨k + 1, ⟨by rw [hall], hc.trans hlen⟩, hlog, ?_⟩
    simpa [hs, SessionState.isAwaiting, SessionState.wait?] using hdiag

/-- A wait that ends in an acknowledgment: the line echoed is the one that was missing (R47, R98). -/
theorem RunHistory.acked {w : Wait} (h : RunHistory a image before echoed s) (hw : s.state = w.session)
    (f : WaitFrame s t) (k : WaitAcked w s t) : RunHistory a image before echoed t where
  start_addr := f.start_addr.trans h.start_addr
  img_len := f.img_len.trans h.img_len
  held := fun _ => f.img.trans (h.held (State.busy_of_session hw))
  link_open := fun _ => k.link_open
  writes := by
    obtain ⟨m, hm, hlog, hdiag⟩ := h.writes
    refine ⟨m, State.writesMade_acked hw k.state f.cursor hm, f.txlog.trans hlog, ?_⟩
    simpa [hw, k.state, k.diag] using hdiag

/-- A wait that ends in the timeout: the last write stays without its acknowledgment (R99). -/
theorem RunHistory.timedOut {w : Wait} (h : RunHistory a image before echoed s) (hw : s.state = w.session)
    (f : WaitFrame s t) (k : WaitTimedOut s t) : RunHistory a image before echoed t where
  start_addr := f.start_addr.trans h.start_addr
  img_len := f.img_len.trans h.img_len
  held := by simp [State.busy, k.state]
  link_open := by simp [State.busy, k.state]
  writes := by
    obtain ⟨m, hm, hlog, hdiag⟩ := h.writes
    refine ⟨m, State.writesMade_timedOut hw k.state hm, f.txlog.trans hlog, ?_⟩
    simpa [hw, k.state, k.diag] using hdiag

end

/-! ### The steps of the agents -/

section
variable {a : Word16} {image : List Byte} {before : List (List Byte)} {echoed : Nat} {s t : State}

/-- The chunk read at `cursor` is the one the number of writes made names. -/
theorem RunHistory.sendData {chunk : List Byte} (h : RunHistory a image before echoed s) (hs : s.state = .sendingData)
    (hc : s.cursor < s.imgLen) (hread : s.img.readMany s.cursor (chunkSize s.imgLen s.cursor) = some chunk) :
    RunHistory a image before echoed
      (((s.pushWrite (layoutBlock .data chunk)).advance chunk.length).enterAwait .dataAck) := by
  refine h.send (w := .dataAck) hs fun m hm => ?_
  simp only [State.writesMade, hs] at hm
  obtain ⟨k, hk, hck, rfl⟩ := hm
  have hlen := h.img_len
  have hk : k < chunkCount image.length := by unfold chunkCount at *; omega
  have hck' : s.cursor = 255 * k := by omega
  have hchunk : chunk = chunkAt image k := by
    have hseg := segNext_chunkAt (h.held (by simp [State.busy, hs])) hlen hck' hk
    obtain ⟨hend, -⟩ | ⟨-, c, hcc, -, hread'⟩ := segNext_ok hseg
    · omega
    · cases hcc
      exact Option.some.inj (hread.symm.trans hread')
  subst hchunk
  refine ⟨fullWrites_getElem?_data a hk, k + 1, Nat.le_add_left 1 k, hk, ?_, rfl⟩
  have hsize := chunkAt_length image k
  simp
  omega

/-- The core's step keeps the history: a sending step, the step of R85, or a poll step. -/
theorem coreStep_keeps_history (h : coreStep s = .next t) (hs : RunHistory a image before echoed s) :
    RunHistory a image before echoed t := by
  obtain ⟨rfl, -⟩ | c | c | c | c | c := coreStep_cases h
  · exact hs
  · cases c with
    | sendStart hw =>
      refine hs.send (w := .startAck) hw fun m hm => ?_
      simp only [State.writesMade, hw] at hm
      obtain ⟨rfl, hc⟩ := hm
      exact ⟨hs.start_addr ▸ fullWrites_getElem?_start s.startAddr image, rfl, hc⟩
  · cases c with
    | sendData hw hc ho chunk hl hr => exact hs.sendData hw hc hr
  · cases c with
    | noData hw hc => exact hs.noData hw hc
  · cases c with
    | sendTrailer hw =>
      refine hs.send (w := .trailerAck) hw fun m hm => ?_
      simp only [State.writesMade, hw] at hm
      obtain ⟨rfl, hc⟩ := hm
      exact ⟨fullWrites_getElem?_trailer a image, rfl, hc⟩
  · cases c with
    | pollTimeout w hw =>
      obtain ⟨f, k⟩ := enterFailed_timedOut s
      exact hs.timedOut hw f k
    | pollNothing => exact hs
    | pollAck w hw ho =>
      exact hs.acked hw (by constructor <;> simp) (by constructor <;> simp [ho])
    | pollRead => exact hs.congr rfl rfl rfl rfl rfl rfl (by simp) (by simp)

/-- The environment touches the Image and the Link only while no run goes on (R111), the queue at any time. -/
theorem execEnv_keeps_history {e : EnvEvent} (h : execEnv e s = .next t) (hs : RunHistory a image before echoed s) :
    RunHistory a image before echoed t := by
  obtain ⟨b, -, -, rfl⟩ | ⟨hb, ⟨d, r, q, rfl⟩ | rfl | ⟨-, rfl⟩ | ⟨im, rfl⟩⟩ := execEnv_cases h
  · exact hs.congr rfl rfl rfl rfl rfl rfl (fun _ => rfl) fun _ => rfl
  all_goals exact hs.congr rfl rfl rfl rfl rfl rfl (by simp [hb]) (by simp [hb])

end

/-- Settles O49: a run has left `Idle`, so a start command is ignored, and each other step keeps the history. -/
theorem everyEventKeepsTheHistory : Obligations.EveryEventKeepsTheHistory := by
  intro a image before echoed e s t hs hreset h
  obtain ⟨-, h⟩ | ⟨-, rfl⟩ | ⟨_, _, _, -, ⟨-, rfl⟩ | ⟨hidle, -⟩⟩ | ⟨rfl, -⟩ | ⟨v, -, h⟩ | ⟨_, rfl⟩ :=
    execEvent_cases h
  · exact coreStep_keeps_history h hs
  · exact hs.congr (by simp) (by simp) (by simp) (by simp) (by simp) (by simp) (by simp) (by simp)
  · exact hs
  · exact absurd hidle hs.not_idle
  · exact absurd rfl hreset
  · exact execEnv_keeps_history h hs
  · exact hs.congr rfl rfl rfl rfl rfl rfl (fun _ => rfl) fun _ => rfl

end Sys2Proof.Machine
end

section
/-! PROOFS. The family 43_session.md, the SESSION operations one by one (R82 to R87), where none of them is enabled
(R81), and the transition table (R80). -/

namespace Sys2Proof.Machine

/-! ### The waiting and the terminal states -/

/-- Settles O24: each of the three rows completes in its own state. -/
theorem waitingAndTerminalStatesDoNothing : Obligations.WaitingAndTerminalStatesDoNothing :=
  ⟨fun _ hs => if_pos hs, fun _ hs => if_pos hs, fun _ hs => if_pos hs⟩

/-! ### The sending steps: in its state each is the core's step -/

theorem exec_of_coreStep {s t : State} {i : Instr} (hi : coreInstr s = i) (h : coreStep s = .next t) :
    exec i s = .next t := by
  rw [← hi, exec_coreInstr, h]

theorem startBlock_bytes (a : Word16) :
    startBlock a = [0x55, 0x3C, 0x00, 0x02, a.extractLsb' 8 8, a.extractLsb' 0 8,
      0x02 + a.extractLsb' 8 8 + a.extractLsb' 0 8, 0x55] := by
  rw [startBlock, be16, layoutBlock, blockChecksum_start]
  rfl

/-- Settles O25: the Block of `start_addr`, written as its eight bytes. -/
theorem sendStartWritesTheStartBlock : Obligations.SendStartWritesTheStartBlock := by
  intro s hs ho
  refine ⟨startBlock s.startAddr, startBlock_bytes s.startAddr, ?_⟩
  exact exec_of_coreStep (by simp only [coreInstr, hs]) (coreStep_sendStart hs ho)

/-- With the Image held the next chunk is there, of a length that DATA allows (R79). -/
theorem coreStep_sendChunk {s : State} (hs : s.state = .sendingData) (ho : s.linkOpen = true) (hc : s.cursor < s.imgLen)
    (himg : ∀ i < s.imgLen, (s.img.read i).isSome = true) :
    ∃ chunk, chunk.length = chunkSize s.imgLen s.cursor ∧
      s.img.readMany s.cursor (chunkSize s.imgLen s.cursor) = some chunk ∧
      coreStep s = .next (((s.pushWrite (layoutBlock .data chunk)).advance chunk.length).enterAwait .dataAck) := by
  obtain ⟨chunk, hseg, hlen, hread⟩ := segNext_chunk hc himg
  have hpos := chunkSize_pos hc
  have hle := chunkSize_le s.imgLen s.cursor
  exact ⟨chunk, hlen, hread, coreStep_sendData hs ho hc hseg (by omega) (by omega)⟩

/-- Settles O26: each byte of the chunk is the one at its offset of the Image. -/
theorem sendDataWritesTheChunk : Obligations.SendDataWritesTheChunk := by
  intro s hs hc ho himg
  obtain ⟨chunk, hlen, hread, hstep⟩ := coreStep_sendChunk hs ho hc himg
  obtain ⟨-, hget⟩ := Memory.readMany_spec hread
  refine ⟨chunk, hlen, fun j hj => hget j (hlen ▸ hj), ?_⟩
  exact exec_of_coreStep (by simp only [coreInstr, hs, Nat.ne_of_lt hc, if_false]) hstep

/-- Settles O27: with `cursor` at the end the core's step is the control transfer alone. -/
theorem noDataGoesToTheTrailer : Obligations.NoDataGoesToTheTrailer := by
  intro s hs hc
  exact exec_of_coreStep (by simp only [coreInstr, hs, hc, if_true]) (coreStep_noData hs hc)

/-- Settles O28: the layout of the empty TRAILER payload is the constant of R74. -/
theorem sendTrailerWritesTheTrailer : Obligations.SendTrailerWritesTheTrailer := by
  intro s hs ho
  exact exec_of_coreStep (by simp only [coreInstr, hs]) (coreStep_sendTrailer hs ho)

/-! ### The table of R87 -/

theorem exec_sessionAckNext {s : State} {w : Wait} (hw : s.state = w.session) :
    exec .sessionAckNext s = .next (s.answering (.session w.next)) := by
  simp only [exec, execSessionAckNext, hw, SessionState.wait?_session]

/-- Settles O29: one row of the table for each wait. -/
theorem ackNextTable : Obligations.AckNextTable :=
  fun _ => ⟨exec_sessionAckNext (w := .startAck), exec_sessionAckNext (w := .dataAck),
    exec_sessionAckNext (w := .trailerAck)⟩

/-! ### Where the rules are not enabled (R81, log entry 11) -/

theorem SessionState.wait?_eq_none {st : SessionState} (h : st.isAwaiting = false) : st.wait? = none :=
  Option.isNone_iff_eq_none.1 (Option.isSome_eq_false_iff.1 h)

/-- The poll step, its two paths and the table of R87 need a wait. -/
theorem exec_not_awaiting {s : State} (h : s.state.isAwaiting = false) :
    exec .awaitPoll s = .fault .notEnabled ∧ exec .awaitAck s = .fault .notEnabled ∧
      exec .awaitTimeout s = .fault .notEnabled ∧ exec .sessionAckNext s = .fault .notEnabled := by
  have hnone := SessionState.wait?_eq_none h
  refine ⟨?_, ?_, ?_, ?_⟩
  · simp only [exec, execAwaitPoll, hnone]
  · simp only [exec, execAwaitAck, hnone]
  · simp only [exec, execAwaitTimeout, hnone]
  · simp only [exec, execSessionAckNext, hnone]

/-- Settles O35: outside its premises each rule takes the branch of its test that faults. -/
theorem notEnabledElsewhere : Obligations.NotEnabledElsewhere := by
  intro s
  refine ⟨fun hs => if_neg hs, fun hs => if_neg hs, fun hs => if_neg hs, fun w hs => if_neg hs, fun hs => if_neg hs,
    fun hs => if_neg ?sendData, fun hs => if_neg ?noData, fun hs => if_neg hs, exec_not_awaiting⟩
  case sendData =>
    rintro ⟨hstate, hc⟩
    exact hs.elim (absurd hstate) fun hle => Nat.not_lt.2 hle hc
  case noData =>
    rintro ⟨hstate, hc⟩
    exact hs.elim (absurd hstate) (absurd hc)

/-! ### The transition table (R80) -/

theorem mayBecome_session (w : Wait) : w.sender.mayBecome w.session = true := by cases w <;> rfl

theorem mayBecome_next (w : Wait) : w.session.mayBecome w.next = true := by cases w <;> rfl

theorem mayBecome_failed (w : Wait) : w.session.mayBecome .failed = true := by cases w <;> rfl

/-- Settles O39: the writers of `state`, each with its edge. -/
theorem transitionsFollowTheTable : Obligations.TransitionsFollowTheTable := by
  intro i s t hu h
  obtain ⟨a, rfl⟩ | c := exec_answers_or_case hu h
  · exact .inl rfl
  cases c with
  | reset => exact .inr (.inr ⟨rfl, rfl⟩)
  | start _ _ _ hs => exact .inr (.inl (by rw [hs]; rfl))
  | sendStart hs => exact .inr (.inl (hs ▸ mayBecome_session .startAck))
  | sendData hs => exact .inr (.inl (hs ▸ mayBecome_session .dataAck))
  | noData hs => exact .inr (.inl (by rw [hs]; rfl))
  | sendTrailer hs => exact .inr (.inl (hs ▸ mayBecome_session .trailerAck))
  | enter w hs => exact .inr (.inl (hs ▸ mayBecome_session w))
  | pollAck w hs | ack w hs => exact .inr (.inl (hs ▸ mayBecome_next w))
  | pollTimeout w hs | timeout w hs => exact .inr (.inl (hs ▸ mayBecome_failed w))
  | _ => exact .inl (by simp)

/-! ### The terminal states (R90) -/

/-- Without a run going on the core's step changes nothing. -/
theorem coreStep_of_not_busy {s : State} (hb : s.busy = false) : coreStep s = .next s := by
  rcases (State.busy_eq_false_iff s).1 hb with hs | hs | hs
  · simp only [coreStep, hs, execSessionIdle, if_true]
  · simp only [coreStep, hs, execSessionDone, if_true]
  · simp only [coreStep, hs, execSessionFailed, if_true]

/-- Settles O42: the core stands still, a tick counts in a wait only, a start command is ignored outside `Idle`, and the
environment has no register. -/
theorem terminalStatesAreLeftByResetOnly : Obligations.TerminalStatesAreLeftByResetOnly := by
  intro e s t hend hreset h
  have hb : s.busy = false := (State.busy_eq_false_iff s).2 (.inr hend)
  have hidle : s.state ≠ .idle := by rcases hend with hs | hs <;> simp [hs]
  obtain ⟨-, h⟩ | ⟨-, rfl⟩ | ⟨_, _, _, -, ⟨-, rfl⟩ | ⟨hs, -⟩⟩ | ⟨rfl, -⟩ | ⟨v, -, h⟩ | ⟨_, rfl⟩ :=
    execEvent_cases h
  · cases (coreStep_of_not_busy hb).symm.trans h
    simp
  · simp [State.tick_of_not_awaiting s (State.not_awaiting_of_not_busy hb)]
  · simp
  · exact absurd hs hidle
  · exact absurd rfl hreset
  · obtain ⟨b, -, -, rfl⟩ | ⟨-, ⟨d, r, q, rfl⟩ | rfl | ⟨-, rfl⟩ | ⟨image, rfl⟩⟩ := execEnv_cases h <;> simp
  · simp

/-! ### The core's step is enabled (R81) -/

theorem coreStep_wait {s : State} {w : Wait} (hw : s.state = w.session) : coreStep s = execAwaitPoll s := by
  cases w <;> simp only [coreStep, hw, Wait.session]

/-- In every state the core has a step: nothing to do, a sending step, the step of R85, or a poll step. -/
theorem coreStep_enabled {s : State} (ho : s.busy = true → s.linkOpen = true) (hc : s.cursor ≤ s.imgLen)
    (himg : s.busy = true → ∀ i < s.imgLen, (s.img.read i).isSome = true) : ∃ t, coreStep s = .next t := by
  cases hb : s.busy with
  | false => exact ⟨s, coreStep_of_not_busy hb⟩
  | true =>
    have ho := ho hb
    obtain ⟨w, hw | hw⟩ := State.exists_wait_of_busy hb
    · cases w with
      | startAck => exact ⟨_, coreStep_sendStart hw ho⟩
      | dataAck =>
        by_cases hend : s.cursor = s.imgLen
        · exact ⟨_, coreStep_noData hw hend⟩
        · obtain ⟨chunk, -, -, hstep⟩ := coreStep_sendChunk hw ho (Nat.lt_of_le_of_ne hc hend) (himg hb)
          exact ⟨_, hstep⟩
      | trailerAck => exact ⟨_, coreStep_sendTrailer hw ho⟩
    · exact ⟨_, (coreStep_wait hw).trans (execAwaitPoll_open hw ho)⟩

/-- Settles O45: the invariant keeps the Link open in a run and `cursor` inside the Image. -/
theorem coreStepIsEnabled : Obligations.CoreStepIsEnabled := by
  intro s hs himg
  rw [exec_coreInstr]
  exact coreStep_enabled hs.link_open hs.cursor_le himg

end Sys2Proof.Machine
end

section
/-! PROOFS. The family 43_session.md, how UPLOAD ends (R91, R92): every transition of a session keeps the history of the
run and brings the end nearer, so the session ends in `Done` or `Failed` with what the history says. -/

namespace Sys2Proof.Machine

/-! ### UPLOAD as a session -/

theorem exec_upload_accepted {s : State} (hs : s.state = .idle) (ho : s.linkOpen = true) (a v : Word16)
    (image : List Byte) (waits : List WaitPlay) :
    exec (.upload a v image waits) s =
      session (2 * image.length + 6) waits ((s.loadImage image).latchStart a image.length v) := by
  simp only [exec, execUpload, execHostStart, State.loadImage_state, State.loadImage_linkOpen, hs, ho, and_self,
    if_true, Result.andThen_next]

theorem exec_upload_ignored {s : State} (h : s.state ≠ .idle ∨ s.linkOpen = false) (a v : Word16)
    (image : List Byte) (waits : List WaitPlay) : exec (.upload a v image waits) s = .next s := by
  refine if_neg ?_
  rintro ⟨hidle, hopen⟩
  rcases h with hs | ho
  · exact hs hidle
  · simp [ho] at hopen

/-! ### A session between two transitions -/

/-- What holds of a session between two transitions: the history of its run, the inputs it was given, a wait only just
entered, and in `Failed` the marks of the timeout (R126). -/
structure InSession (a v : Word16) (image : List Byte) (before : List (List Byte)) (echoed : Nat) (s : State) :
    Prop where
  history : RunHistory a image before echoed s
  timeout_ms : s.timeoutMs = v
  img : s.img = Memory.ofBytes image
  fresh : s.state.isAwaiting = true → s.wdElapsed = 0 ∧ s.rxbuf = []
  failed : s.state = .failed → s.err = .noAcknowledgment ∧ s.linkOpen = false

/-- A bound on the transitions still to come: two for each byte of the Image not sent, those of the Start Address Block,
those of the Trailer Block, and the step of R85. -/
def State.transitionsLeft (s : State) : Nat :=
  match s.state with
  | .idle => 0
  | .sendingStart => 2 * (s.imgLen - s.cursor) + 5
  | .awaitingStartAck => 2 * (s.imgLen - s.cursor) + 4
  | .sendingData => 2 * (s.imgLen - s.cursor) + 3
  | .awaitingDataAck => 2 * (s.imgLen - s.cursor) + 4
  | .sendingTrailer => 2
  | .awaitingTrailerAck => 1
  | .done => 0
  | .failed => 0

section
variable {s t : State} {w : Wait}

/-- A Block sent brings the end nearer, a Data Block by what it takes off the Image. -/
theorem State.transitionsLeft_send (hw : s.state = w.sender) (ht : t.state = w.session) (hl : t.imgLen = s.imgLen)
    (hc : s.cursor ≤ t.cursor) (hdata : w = .dataAck → s.cursor < s.imgLen ∧ s.cursor < t.cursor) :
    t.transitionsLeft < s.transitionsLeft := by
  cases w <;> simp only [State.transitionsLeft, hw, ht, hl, Wait.sender, Wait.session]
  case startAck => omega
  case dataAck => have := hdata rfl; omega
  case trailerAck => omega

theorem State.transitionsLeft_acked (hw : s.state = w.session) (ht : t.state = w.next) (hl : t.imgLen = s.imgLen)
    (hc : t.cursor = s.cursor) : t.transitionsLeft < s.transitionsLeft := by
  cases w <;> simp only [State.transitionsLeft, hw, ht, hl, hc, Wait.session, Wait.next] <;> omega

theorem State.transitionsLeft_timedOut (hw : s.state = w.session) (ht : t.state = .failed) :
    t.transitionsLeft < s.transitionsLeft := by
  cases w <;> simp only [State.transitionsLeft, hw, ht, Wait.session] <;> omega

end

/-! ### The transitions -/

section
variable {a v : Word16} {image : List Byte} {before : List (List Byte)} {echoed : Nat} {s : State}

theorem InSession.image_held (h : InSession a v image before echoed s) :
    ∀ i < s.imgLen, (s.img.read i).isSome = true := by
  intro i hi
  rw [h.img, Memory.read_ofBytes, List.getElem?_eq_getElem (h.history.img_len ▸ hi)]
  rfl

theorem RunHistory.cursor_le (h : RunHistory a image before echoed s) (hs : s.state = .sendingData) :
    s.cursor ≤ s.imgLen := by
  obtain ⟨m, hm, -⟩ := h.writes
  simp only [State.writesMade, hs] at hm
  obtain ⟨k, -, hc, -⟩ := hm
  rw [hc, h.img_len]
  exact Nat.min_le_right _ _

/-- A sending step that writes a Block. -/
theorem InSession.sent {w : Wait} {bs : List Byte} {n : Nat} (h : InSession a v image before echoed s)
    (hw : s.state = w.sender) (hstep : coreStep s = .next (((s.pushWrite bs).advance n).enterAwait w))
    (hdata : w = .dataAck → s.cursor < s.imgLen ∧ 1 ≤ n) :
    ∃ t, coreStep s = .next t ∧ InSession a v image before echoed t ∧ t.transitionsLeft < s.transitionsLeft := by
  refine ⟨_, hstep, ⟨coreStep_keeps_history hstep h.history, h.timeout_ms, h.img, fun _ => ⟨rfl, rfl⟩, ?_⟩, ?_⟩
  · cases w <;> simp [Wait.session]
  · refine State.transitionsLeft_send hw rfl rfl (Nat.le_add_right _ _) fun hd => ?_
    obtain ⟨hlt, hn⟩ := hdata hd
    exact ⟨hlt, Nat.lt_add_of_pos_right hn⟩

/-- A sending step writes a Block, or leaves the Data Blocks behind (R85). -/
theorem InSession.send {w : Wait} (h : InSession a v image before echoed s) (hw : s.state = w.sender) :
    ∃ t, coreStep s = .next t ∧ InSession a v image before echoed t ∧ t.transitionsLeft < s.transitionsLeft := by
  have ho := h.history.link_open (State.busy_of_sender hw)
  cases w with
  | startAck => exact h.sent (w := .startAck) hw (coreStep_sendStart hw ho) (by simp)
  | dataAck =>
    by_cases hend : s.cursor = s.imgLen
    · have hstep := coreStep_noData hw hend
      refine ⟨_, hstep, ⟨coreStep_keeps_history hstep h.history, h.timeout_ms, h.img, ?_, by simp⟩, ?_⟩
      · simp [SessionState.isAwaiting, SessionState.wait?]
      · simp only [State.transitionsLeft, hw, Wait.sender, State.goto_state]
        omega
    · have hlt : s.cursor < s.imgLen := Nat.lt_of_le_of_ne (h.history.cursor_le hw) hend
      obtain ⟨chunk, hlen, -, hstep⟩ := coreStep_sendChunk hw ho hlt h.image_held
      exact h.sent (w := .dataAck) hw hstep fun _ => ⟨hlt, hlen ▸ chunkSize_pos hlt⟩
  | trailerAck => exact h.sent (w := .trailerAck) hw (coreStep_sendTrailer hw ho) (by simp)

/-- A wait ends in an acknowledgment or in the timeout. -/
theorem InSession.wait {w : Wait} (h : InSession a v image before echoed s) (hw : s.state = w.session) (p : WaitPlay) :
    ∃ t, playWait p s = .next t ∧ InSession a v image before echoed t ∧ t.transitionsLeft < s.transitionsLeft := by
  obtain ⟨hz, hb⟩ := h.fresh (by simp [hw])
  have ho := h.history.link_open (State.busy_of_session hw)
  obtain ⟨t, hplay, f, hend, -⟩ := playWait_ends p hw ho hz hb
  have htimeout := f.timeout_ms.trans h.timeout_ms
  have himg := f.img.trans h.img
  refine ⟨t, hplay, ?_⟩
  rcases hend with k | k
  · refine ⟨⟨h.history.acked hw f k, htimeout, himg, ?_, ?_⟩, State.transitionsLeft_acked hw k.state f.img_len f.cursor⟩
    · simp [k.state]
    · simp [k.state]
  · refine ⟨⟨h.history.timedOut hw f k, htimeout, himg, ?_, fun _ => ⟨k.err, k.link_open⟩⟩,
      State.transitionsLeft_timedOut hw k.state⟩
    simp [k.state, SessionState.isAwaiting, SessionState.wait?]

/-- One transition of a session that has not ended. -/
theorem InSession.transition (h : InSession a v image before echoed s) (hb : s.busy = true) (waits : List WaitPlay) :
    ∃ t rest, (∀ fuel, session (fuel + 1) waits s = session fuel rest t) ∧ InSession a v image before echoed t ∧
      t.transitionsLeft < s.transitionsLeft := by
  obtain ⟨w, hw | hw⟩ := State.exists_wait_of_busy hb
  · obtain ⟨t, hstep, ht, hlt⟩ := h.send hw
    exact ⟨t, waits, fun _ => session_send (by simp [hw]) hstep, ht, hlt⟩
  · obtain ⟨t, hplay, ht, hlt⟩ := h.wait hw (waits.headD { line := [], ticks := 0 })
    exact ⟨t, waits.tail, fun _ => session_wait (by simp [hw]) hplay, ht, hlt⟩

/-- A run with a history that does not go on has ended. -/
theorem RunHistory.ended (h : RunHistory a image before echoed s) (hb : s.busy = false) :
    s.state = .done ∨ s.state = .failed :=
  ((State.busy_eq_false_iff s).1 hb).resolve_left h.not_idle

/-- With fuel for the transitions that are left a session ends, whatever is played in its waits. -/
theorem InSession.ends (fuel : Nat) (waits : List WaitPlay) (h : InSession a v image before echoed s)
    (hfuel : s.transitionsLeft ≤ fuel) :
    ∃ t, session fuel waits s = .next t ∧ InSession a v image before echoed t ∧
      (t.state = .done ∨ t.state = .failed) := by
  induction fuel generalizing s waits with
  | zero =>
    cases hb : s.busy with
    | false => exact ⟨s, rfl, h, h.history.ended hb⟩
    | true =>
      obtain ⟨t, rest, -, -, hlt⟩ := h.transition hb waits
      omega
  | succ fuel ih =>
    cases hb : s.busy with
    | false => exact ⟨s, session_end (h.history.ended hb), h, h.history.ended hb⟩
    | true =>
      obtain ⟨t, rest, hrun, ht, hlt⟩ := h.transition hb waits
      rw [hrun]
      exact ih rest ht (by omega)

end

/-! ### The two statements -/

/-- The start command of an accepted UPLOAD begins a session. -/
theorem inSession_start {s : State} (ho : s.linkOpen = true) (a v : Word16) (image : List Byte) :
    InSession a v image s.txlog s.diag.length ((s.loadImage image).latchStart a image.length v) where
  history := RunHistory.latchStart (s := s.loadImage image) rfl ho v
  timeout_ms := rfl
  img := rfl
  fresh := by simp [SessionState.isAwaiting, SessionState.wait?]
  failed := by simp

/-- Settles O51: the session ends, and the history gives the writes made by then. -/
theorem uploadAlwaysEnds : Obligations.UploadAlwaysEnds := by
  intro a v image waits s
  refine ⟨fun hs ho => ?_, fun hignored => exec_upload_ignored hignored a v image waits⟩
  obtain ⟨t, hrun, ht, hend⟩ := (inSession_start ho a v image).ends (2 * image.length + 6) waits
    (by simp [State.transitionsLeft])
  obtain ⟨m, hm, hlog, -⟩ := ht.history.writes
  have hexec := (exec_upload_accepted hs ho a v image waits).trans hrun
  have hresult : (1 ≤ m ∧ m ≤ chunkCount image.length + 2) ∧
      ((t.state = .done ∧ m = chunkCount image.length + 2) ∨
        (t.state = .failed ∧ t.err = .noAcknowledgment ∧ t.linkOpen = false)) := by
    rcases hend with hdone | hfailed
    · simp only [State.writesMade, hdone] at hm
      exact ⟨by omega, .inl ⟨hdone, hm.1⟩⟩
    · simp only [State.writesMade, hfailed] at hm
      exact ⟨hm, .inr ⟨hfailed, ht.failed hfailed⟩⟩
  obtain ⟨⟨hpos, hle⟩, hresult⟩ := hresult
  exact ⟨t, m, hexec, hpos, hle, hlog, ht.history.start_addr, ht.history.img_len, ht.timeout_ms, ht.img, hresult⟩

/-- Settles O52: the first wait ends in the timeout, so the session ends with the one write before it. -/
theorem uploadWithoutAcknowledgmentFails : Obligations.UploadWithoutAcknowledgmentFails := by
  intro a v image waits s hs ho hq hwaits
  have hline : 0x0A ∉ (waits.headD { line := [], ticks := 0 }).line := by
    cases waits with
    | nil => simp
    | cons p ps => exact hwaits p (by simp)
  have hsend := coreStep_sendStart (s := (s.loadImage image).latchStart a image.length v) rfl ho
  obtain ⟨t, hplay, f, -, -, hnever⟩ := playWait_ends (waits.headD { line := [], ticks := 0 }) (w := .startAck)
    (s := ((((s.loadImage image).latchStart a image.length v).pushWrite (startBlock a)).advance 0).enterAwait .startAck)
    rfl ho rfl rfl
  have k := hnever hq hline
  have hrun : exec (.upload a v image waits) s = .next t := by
    rw [exec_upload_accepted hs ho, session_send rfl hsend]
    exact (session_wait rfl hplay).trans (session_end (.inr k.state))
  exact ⟨t, hrun, k.state, k.err, k.link_open, f.cursor, f.txlog, k.diag⟩

end Sys2Proof.Machine
end

section
/-! PROOFS. The family 44_ack_watchdog.md: the entry to a wait, the tick, the poll step with its two paths (R95 to R99),
and the bounds on when a wait fails (R100). -/

namespace Sys2Proof.Machine

/-! ### The sub-steps of a wait (R95, R98, R99) -/

theorem exec_awaitEnter {s : State} {w : Wait} (hw : s.state = w.sender) :
    exec (.awaitEnter w) s = .next (s.enterAwait w) := by
  simp only [exec, execAwaitEnter, hw, if_true]

theorem exec_awaitAck {s : State} {w : Wait} (hw : s.state = w.session) :
    exec .awaitAck s = .next (s.acknowledge w) := by
  simp only [exec, execAwaitAck, hw, SessionState.wait?_session]

theorem exec_awaitTimeout {s : State} {w : Wait} (hw : s.state = w.session) (ho : s.linkOpen = true) :
    exec .awaitTimeout s = .next s.enterFailed := by
  simp only [exec, execAwaitTimeout, hw, SessionState.wait?_session, raiseNoAcknowledgment_open ho, Result.ofExcept_ok]

/-- Settles O30: each wait is entered from its sending state. -/
theorem enterAwaitClears : Obligations.EnterAwaitClears :=
  fun _ => ⟨exec_awaitEnter (w := .startAck), exec_awaitEnter (w := .dataAck), exec_awaitEnter (w := .trailerAck)⟩

/-- Settles O32: the operation is the acknowledgment path of the wait the state is in. -/
theorem acknowledgmentPath : Obligations.AcknowledgmentPath :=
  fun _ _ => exec_awaitAck

/-- Settles O33: the operation is the failure transition, whose outputs are those of `Failed`. -/
theorem failureTransition : Obligations.FailureTransition := by
  intro s ha ho
  obtain ⟨w, hw⟩ := SessionState.isAwaiting_iff.1 ha
  exact ⟨s.enterFailed, exec_awaitTimeout hw ho, rfl, rfl, rfl, rfl⟩

/-! ### The tick (R96) -/

theorem saturatingInc_eq_ofNat (v : Word16) : saturatingInc v = BitVec.ofNat 16 (min (v.toNat + 1) 65535) := by
  apply BitVec.eq_of_toNat_eq
  rw [saturatingInc_toNat, BitVec.toNat_ofNat]
  omega

/-- Settles O34: in a wait the counter takes its saturating successor, elsewhere a tick changes nothing. -/
theorem tickCountsInTheWaits : Obligations.TickCountsInTheWaits := by
  refine ⟨fun s ha => ?_, fun s ha => ?_⟩
  · rw [← saturatingInc_eq_ofNat]
    simp only [exec, execTick, State.tick, ha, if_true]
  · simp only [exec, execTick, State.tick_of_not_awaiting s ha]

/-! ### The poll step in time (R97) -/

/-- Reading an empty queue changes nothing. -/
theorem State.readAll_of_rxq_nil {s : State} (hq : s.rxq = []) : s.readAll = s := by
  rw [State.readAll_eq, hq, List.append_nil, ← hq]

section
variable {s : State} {w : Wait} (hw : s.state = w.session) (ho : s.linkOpen = true)
  (ht : s.wdElapsed.toNat < s.timeoutMs.toNat)
include hw ho ht

theorem execAwaitPoll_inTime :
    execAwaitPoll s = .next (if s.rxq = [] then s
      else if hasNewline (s.rxbuf ++ s.rxq) = true then s.readAll.acknowledge w
      else s.readAll) := by
  rw [execAwaitPoll_open hw ho, if_neg (by rw [timeUp_iff]; omega)]

/-- Without an `NL` in the buffer and the queue the poll step reads the queue, be it empty or not. -/
theorem execAwaitPoll_noNewline (hn : 0x0A ∉ s.rxbuf ++ s.rxq) : execAwaitPoll s = .next s.readAll := by
  rw [execAwaitPoll_inTime hw ho ht]
  by_cases hq : s.rxq = []
  · rw [if_pos hq, State.readAll_of_rxq_nil hq]
  · rw [if_neg hq, if_neg (by rwa [hasNewline_iff])]

theorem execAwaitPoll_newline (hq : s.rxq ≠ []) (hn : 0x0A ∈ s.rxbuf ++ s.rxq) :
    execAwaitPoll s = .next (s.readAll.acknowledge w) := by
  rw [execAwaitPoll_inTime hw ho ht, if_neg hq, if_pos ((hasNewline_iff _).2 hn)]

end

/-- Settles O31: the late poll step, and the three cases of the one in time. -/
theorem pollStep : Obligations.PollStep := by
  intro s w hw ho
  refine ⟨execAwaitPoll_late hw ho, fun ht hq => ?_, fun ht _ hn => ?_, fun ht hq hn => ?_⟩
  · exact (execAwaitPoll_inTime hw ho ht).trans (by rw [if_pos hq])
  · exact (execAwaitPoll_noNewline hw ho ht hn).trans (by rw [State.readAll_eq])
  · exact (execAwaitPoll_newline hw ho ht hq hn).trans (by rw [State.readAll_eq]; rfl)

/-! ### A wait that goes on -/

/-- From `s` to `t` the same wait has gone on, with `k` ticks counted. -/
structure WaitElapses (k : Nat) (s t : State) : Prop extends WaitFrame s t where
  state : t.state = s.state
  link_open : t.linkOpen = s.linkOpen
  diag : t.diag = s.diag
  elapsed : t.wdElapsed.toNat = min (s.wdElapsed.toNat + k) 65535

theorem WaitElapses.refl (s : State) : WaitElapses 0 s s where
  toWaitFrame := ⟨rfl, rfl, rfl, rfl, rfl, rfl, rfl, rfl, rfl⟩
  state := rfl
  link_open := rfl
  diag := rfl
  elapsed := by have := s.wdElapsed.isLt; omega

theorem WaitElapses.trans {j k : Nat} {s t u : State} (h : WaitElapses j s t) (g : WaitElapses k t u) :
    WaitElapses (j + k) s u where
  toWaitFrame := h.toWaitFrame.trans g.toWaitFrame
  state := g.state.trans h.state
  link_open := g.link_open.trans h.link_open
  diag := g.diag.trans h.diag
  elapsed := by rw [g.elapsed, h.elapsed]; omega

theorem WaitElapses.tick {s : State} (ha : s.state.isAwaiting = true) : WaitElapses 1 s s.tick where
  toWaitFrame := by constructor <;> simp
  state := by simp
  link_open := by simp
  diag := by simp
  elapsed := by rw [State.tick_wdElapsed_awaiting s ha, saturatingInc_toNat]

theorem WaitElapses.pushRx (s : State) (b : Byte) : WaitElapses 0 s (s.pushRx b) := { WaitElapses.refl s with }

theorem WaitElapses.answering (s : State) (a : Answer) : WaitElapses 0 s (s.answering a) := { WaitElapses.refl s with }

theorem WaitElapses.readAll (s : State) : WaitElapses 0 s s.readAll := { WaitElapses.refl s with }

/-! ### Between two poll steps -/

theorem count_tick_cons (e : Event) (es : List Event) : (e :: es).count .tick = [e].count .tick + es.count .tick :=
  List.count_append (l₁ := [e])

/-- The start command is ignored in a wait (R90, R110). -/
theorem execEvent_start_in_wait {s : State} (ha : s.state.isAwaiting = true) (a : Word16) (n : Nat) (v : Word16) :
    execEvent (.start a n v) s = .next s := by
  have hidle : s.state ≠ .idle := by
    intro hs
    rw [hs] at ha
    cases ha
  simp only [execEvent, exec, execHostStart, hidle, false_and, if_false]

/-- A word that decodes is a Framer request, which is answered. -/
theorem execWord_of_decode_isOk {bs : List Byte} (h : (decode bs).isOk = true) (s : State) :
    ∃ a, execWord bs s = .next (s.answering a) := by
  cases hd : decode bs with
  | error x => rw [hd] at h; cases h
  | ok i =>
    obtain ⟨kind, payload, rfl⟩ := decode_is_request hd
    exact ⟨_, (execWord_of_decode_ok hd s).trans (exec_requestOf kind payload s)⟩

/-- In a wait every event but a poll step and reset lets the wait go on. -/
theorem execEvent_between_polls {e : Event} {s t : State} (ha : s.state.isAwaiting = true) (hc : e ≠ .core)
    (hr : e ≠ .reset) (h : execEvent e s = .next t) : WaitElapses ([e].count .tick) s t := by
  cases e with
  | core => exact absurd rfl hc
  | reset => exact absurd rfl hr
  | tick => cases h; exact .tick ha
  | start a n v => cases (execEvent_start_in_wait ha a n v).symm.trans h; exact .refl s
  | env v =>
    obtain ⟨b, -, -, rfl⟩ | ⟨hb, -⟩ := execEnv_cases h
    · exact .pushRx s b
    · exact absurd ha (by rw [State.not_awaiting_of_not_busy hb]; decide)
  | framerRequest kind payload => cases (exec_requestOf kind payload s).symm.trans h; exact .answering s _
  | framerWord bs =>
    cases hd : decode bs with
    | error x => cases (execWord_of_decode_error hd s).symm.trans h
    | ok i =>
      obtain ⟨a, hrun⟩ := execWord_of_decode_isOk (by rw [hd]; rfl) s
      cases hrun.symm.trans h
      exact .answering s a

/-! ### The lower bound (R100) -/

/-- No operation takes a line from the echo. -/
theorem ExecCase.diag_length_le {i : Instr} {s t : State} (c : ExecCase s i t) : s.diag.length ≤ t.diag.length := by
  cases c <;> simp

theorem execEvent_diag_length_le {e : Event} {s t : State} (h : execEvent e s = .next t) :
    s.diag.length ≤ t.diag.length := by
  obtain ⟨-, h⟩ | ⟨-, rfl⟩ | ⟨_, _, _, -, ⟨-, rfl⟩ | ⟨-, -, rfl⟩⟩ | ⟨-, rfl⟩ | ⟨v, -, h⟩ | ⟨_, rfl⟩ :=
    execEvent_cases h
  · obtain ⟨rfl, -⟩ | c | c | c | c | c := coreStep_cases h
    · exact Nat.le_refl _
    all_goals exact c.diag_length_le
  · simp
  · exact Nat.le_refl _
  · simp
  · simp
  · obtain ⟨b, -, -, rfl⟩ | ⟨-, ⟨d, r, q, rfl⟩ | rfl | ⟨-, rfl⟩ | ⟨image, rfl⟩⟩ := execEnv_cases h <;> simp
  · simp

theorem eventsOf_diag_length_le {es : List Event} {s t : State} (h : eventsOf es s = .next t) :
    s.diag.length ≤ t.diag.length := by
  induction es generalizing s with
  | nil => cases h; exact Nat.le_refl _
  | cons e es ih =>
    obtain ⟨u, hu, h⟩ := Result.andThen_inv h
    exact (execEvent_diag_length_le hu).trans (ih h)

/-- What one event short of reset makes of a wait: it goes on, or it is a poll step that finds the timeout due or ends
the wait in an acknowledgment, which leaves a line in the echo. -/
theorem execEvent_in_wait {e : Event} {s t : State} (ha : s.state.isAwaiting = true) (hr : e ≠ .reset)
    (h : execEvent e s = .next t) :
    WaitElapses ([e].count .tick) s t ∨ s.timeoutMs.toNat ≤ s.wdElapsed.toNat ∨ s.diag.length < t.diag.length := by
  by_cases hc : e = .core
  · subst hc
    obtain ⟨w, hw⟩ := SessionState.isAwaiting_iff.1 ha
    rw [execEvent, exec_coreInstr, coreStep_wait hw] at h
    cases exec_cases (i := .awaitPoll) rfl (by simp) h with
    | pollTimeout _ _ _ ht => exact .inr (.inl ((timeUp_iff s).1 ht))
    | pollNothing => exact .inl (.refl s)
    | pollAck => exact .inr (.inr (by simp))
    | pollRead => exact .inl (.readAll s)
  · exact .inl (execEvent_between_polls ha hc hr h)

/-- A wait that has counted some ticks and fails needs the rest of `timeout_ms`. -/
theorem timeout_le_elapsed_add_ticks {es : List Event} {s t : State} (ha : s.state.isAwaiting = true)
    (hr : Event.reset ∉ es) (h : eventsOf es s = .next t) (hf : t.state = .failed) (hd : t.diag = s.diag) :
    s.timeoutMs.toNat ≤ s.wdElapsed.toNat + es.count .tick := by
  induction es generalizing s with
  | nil =>
    cases h
    rw [hf] at ha
    cases ha
  | cons e es ih =>
    obtain ⟨u, hu, h⟩ := Result.andThen_inv h
    obtain ⟨hre, hr⟩ := not_or.1 (mt List.mem_cons.2 hr)
    obtain g | hlate | hack := execEvent_in_wait ha (Ne.symm hre) hu
    · have hrest := ih (by rwa [g.state]) hr h (hd.trans g.diag.symm)
      rw [g.timeout_ms, g.elapsed] at hrest
      rw [count_tick_cons]
      omega
    · omega
    · have := eventsOf_diag_length_le h
      rw [hd] at this
      omega

/-- Settles O37: the bound for a wait that has just been entered. -/
theorem timeoutIsNeverEarly : Obligations.TimeoutIsNeverEarly := by
  intro es s t ha hz hr h hf hd
  have hle := timeout_le_elapsed_add_ticks ha hr h hf hd
  rwa [hz, show (0 : Word16).toNat = 0 from rfl, Nat.zero_add] at hle

/-! ### The upper bound (R100) -/

/-- A quiet event happens in a wait over an open Link, and brings no `NL`. -/
theorem execEvent_quiet {e : Event} {s : State} (ha : s.state.isAwaiting = true) (ho : s.linkOpen = true)
    (hn : 0x0A ∉ s.rxbuf ++ s.rxq) (hq : e.isQuiet = true) :
    ∃ t, execEvent e s = .next t ∧ 0x0A ∉ t.rxbuf ++ t.rxq := by
  cases e with
  | core | reset => cases hq
  | tick => exact ⟨s.tick, rfl, by simpa using hn⟩
  | start a n v => exact ⟨s, execEvent_start_in_wait ha a n v, hn⟩
  | env v =>
    cases v with
    | rx b =>
      have hb : 0x0A ≠ b := Ne.symm (bne_iff_ne.1 hq)
      refine ⟨s.pushRx b, ?_, ?_⟩
      · simp only [execEvent, execEnv, exec, execRemoteEnqueue, remoteEnqueue_open ho, Result.ofExcept_ok]
      · rw [State.pushRx_rxbuf, State.pushRx_rxq, ← List.append_assoc, List.mem_append, List.mem_singleton]
        exact not_or.2 ⟨hn, hb⟩
    | openLink | closeLink | loadImage => cases hq
  | framerRequest kind payload => exact ⟨_, exec_requestOf kind payload s, hn⟩
  | framerWord bs =>
    obtain ⟨a, hrun⟩ := execWord_of_decode_isOk hq s
    exact ⟨_, hrun, hn⟩

theorem eventsOf_quiet {es : List Event} {s : State} (ha : s.state.isAwaiting = true) (ho : s.linkOpen = true)
    (hn : 0x0A ∉ s.rxbuf ++ s.rxq) (hq : es.all Event.isQuiet = true) :
    ∃ t, eventsOf es s = .next t ∧ WaitElapses (es.count .tick) s t ∧ 0x0A ∉ t.rxbuf ++ t.rxq := by
  induction es generalizing s with
  | nil => exact ⟨s, rfl, .refl s, hn⟩
  | cons e es ih =>
    obtain ⟨hqe, hqs⟩ := Bool.and_eq_true_iff.1 (List.all_cons.symm.trans hq)
    obtain ⟨u, hu, hnu⟩ := execEvent_quiet ha ho hn hqe
    have f := execEvent_between_polls ha (by rintro rfl; cases hqe) (by rintro rfl; cases hqe) hu
    obtain ⟨t, ht, g, hnt⟩ := ih (by rwa [f.state]) (f.link_open.trans ho) hnu hqs
    refine ⟨t, ?_, ?_, hnt⟩
    · rw [eventsOf, hu, Result.andThen_next, ht]
    · rw [count_tick_cons]
      exact f.trans g

/-- A poll step after quiet events: the timeout where it is due, else the wait goes on without an `NL`. -/
theorem eventsOf_quiet_poll {es : List Event} {s : State} (ha : s.state.isAwaiting = true) (ho : s.linkOpen = true)
    (hn : 0x0A ∉ s.rxbuf ++ s.rxq) (hq : es.all Event.isQuiet = true) :
    ∃ t, eventsOf (es ++ [.core]) s = .next t ∧
      ((s.timeoutMs.toNat ≤ s.wdElapsed.toNat + es.count .tick ∧ WaitFrame s t ∧ WaitTimedOut s t) ∨
        (s.wdElapsed.toNat + es.count .tick < s.timeoutMs.toNat ∧ WaitElapses (es.count .tick) s t ∧
          0x0A ∉ t.rxbuf ++ t.rxq)) := by
  obtain ⟨u, hu, f, hnu⟩ := eventsOf_quiet ha ho hn hq
  obtain ⟨w, hw⟩ := SessionState.isAwaiting_iff.1 ha
  have hwu := f.state.trans hw
  have hou := f.link_open.trans ho
  have hlt := s.timeoutMs.isLt
  have helapsed := f.elapsed
  have hrun : eventsOf (es ++ [.core]) s = Result.andThen (execAwaitPoll u) .next := by
    rw [eventsOf_append, hu, Result.andThen_next, eventsOf, execEvent, exec_coreInstr, coreStep_wait hwu]
    rfl
  by_cases hlate : s.timeoutMs.toNat ≤ s.wdElapsed.toNat + es.count .tick
  · rw [execAwaitPoll_late hwu hou (by rw [f.timeout_ms]; omega)] at hrun
    obtain ⟨g, k⟩ := enterFailed_timedOut u
    exact ⟨u.enterFailed, hrun, .inl ⟨hlate, f.toWaitFrame.trans g, { k with diag := k.diag.trans f.diag }⟩⟩
  · rw [execAwaitPoll_noNewline hwu hou (by rw [f.timeout_ms]; omega) hnu] at hrun
    exact ⟨u.readAll, hrun, .inr ⟨by omega, f.trans (.readAll u), by simpa using hnu⟩⟩

theorem pollsAfter_cons (es : List Event) (segs : List (List Event)) :
    pollsAfter (es :: segs) = (es ++ [.core]) ++ pollsAfter segs := rfl

/-- Poll steps at most `p` ticks apart: the wait fails at the first of them where the timeout is due. -/
theorem pollsAfter_times_out {p : Nat} {segs : List (List Event)} {s : State} (ha : s.state.isAwaiting = true)
    (ho : s.linkOpen = true) (hn : 0x0A ∉ s.rxbuf ++ s.rxq) (hle : s.wdElapsed.toNat ≤ s.timeoutMs.toNat)
    (hnil : segs = [] → s.wdElapsed.toNat < s.timeoutMs.toNat)
    (hsegs : ∀ es ∈ segs, es.all Event.isQuiet = true ∧ es.count .tick ≤ p)
    (hdue : s.timeoutMs.toNat ≤ s.wdElapsed.toNat + segs.flatten.count .tick) :
    ∃ (n : Nat) (t : State), n ≤ segs.length ∧ eventsOf (pollsAfter (segs.take n)) s = .next t ∧ WaitFrame s t ∧
      WaitTimedOut s t ∧ s.timeoutMs.toNat ≤ s.wdElapsed.toNat + (segs.take n).flatten.count .tick ∧
      s.wdElapsed.toNat + (segs.take n).flatten.count .tick ≤ s.timeoutMs.toNat + p := by
  induction segs generalizing s with
  | nil => exact absurd hdue (Nat.not_le_of_lt (hnil rfl))
  | cons es segs ih =>
    obtain ⟨⟨hq, hp⟩, hsegs⟩ := List.forall_mem_cons.1 hsegs
    obtain ⟨u, hu, ⟨hlate, f, k⟩ | ⟨hearly, f, hnu⟩⟩ := eventsOf_quiet_poll ha ho hn hq
    · refine ⟨1, u, by simp, ?_, f, k, by simpa using hlate, ?_⟩
      · simpa [pollsAfter] using hu
      · have : (List.take 1 (es :: segs)).flatten = es := by simp
        rw [this]
        omega
    · have hlt := s.timeoutMs.isLt
      have helapsed : u.wdElapsed.toNat = s.wdElapsed.toNat + es.count .tick := by rw [f.elapsed]; omega
      simp only [List.flatten_cons, List.count_append] at hdue
      obtain ⟨n, t, hlen, hrun, g, k, hmin, hmax⟩ := ih (s := u) (by rwa [f.state]) (f.link_open.trans ho) hnu
        (by rw [f.timeout_ms]; omega) (fun _ => by rw [f.timeout_ms]; omega) hsegs (by rw [f.timeout_ms]; omega)
      rw [f.timeout_ms, helapsed] at hmin hmax
      refine ⟨n + 1, t, Nat.succ_le_succ hlen, ?_, f.toWaitFrame.trans g, { k with diag := k.diag.trans f.diag },
        ?_, ?_⟩
      · rw [List.take_succ_cons, pollsAfter_cons, eventsOf_append, hu, Result.andThen_next, hrun]
      all_goals
        simp only [List.take_succ_cons, List.flatten_cons, List.count_append]
        omega

/-- Settles O38: the poll steps of a wait that has just been entered. -/
theorem timeoutComesWithinOnePollInterval : Obligations.TimeoutComesWithinOnePollInterval := by
  intro p segs s ha ho hz hn hne hsegs hdue
  have hz : s.wdElapsed.toNat = 0 := by rw [hz]; rfl
  obtain ⟨n, t, hlen, hrun, f, k, hmin, hmax⟩ := pollsAfter_times_out ha ho hn (by omega) (fun h => absurd h hne) hsegs
    (by omega)
  exact ⟨n, t, hlen, hrun, k.state, k.err, k.link_open, f.cursor, f.txlog, f.wire, k.diag, by omega, by omega⟩

end Sys2Proof.Machine
end

section
/-! PROOFS. The family 45_link_and_ports.md, the clocked invariant (R114, R115): what it says of a Block in progress and
of a state without one, what starts and what ends a Block, and that every clock cycle keeps it. -/

namespace Sys2Proof.Machine

/-! ### Which states send a Block (R114) -/

@[simp] theorem State.loadBlk_sendsBlock (s : State) : s.loadBlk.sendsBlock = s.sendsBlock := by
  simp [State.sendsBlock]

@[simp] theorem State.loadBlk_busy (s : State) : s.loadBlk.busy = s.busy := by
  simp [State.busy]

theorem State.sendsBlock_of_awaiting {s : State} (ha : s.state.isAwaiting = true) : s.sendsBlock = false := by
  cases hb : s.sendsBlock with
  | false => rfl
  | true => exact absurd ha (by simp [(State.not_awaiting_of_sendsBlock hb).1])

theorem State.sendsBlock_of_not_busy {s : State} (hb : s.busy = false) : s.sendsBlock = false := by
  rcases (State.busy_eq_false_iff s).1 hb with hs | hs | hs <;> simp [State.sendsBlock, SessionState.isSending, hs]

/-! ### A Block in progress -/

/-- The core is sending the Block `bs` byte by byte over an open Link. -/
structure Sending (bs : List Byte) (s : State) : Prop where
  sends : s.sendsBlock = true
  link_open : s.linkOpen = true
  block : s.blockBytes? = some bs
  progress : BlockProgress bs s

theorem ClockInv.sending {s : State} (h : ClockInv s) (hs : s.sendsBlock = true) : ∃ bs, Sending bs s := by
  obtain ⟨bs, hbs, hp⟩ := h.block hs
  exact ⟨bs, hs, h.link_open (State.not_awaiting_of_sendsBlock hs).2.1, hbs, hp⟩

section
variable {bs : List Byte} {s : State} (h : Sending bs s)
include h

/-- The byte the transmit port offers is the next one of the Block (R114). -/
theorem Sending.offers : ∃ b, bs[s.byteIdx.toNat]? = some b ∧ s.txByte? = some b := by
  have hb := List.getElem?_eq_getElem h.progress.idx
  exact ⟨_, hb, (BlockProgress.offers h.block h.progress).1.trans hb⟩

theorem Sending.txLast_eq : s.txLast = decide (s.byteIdx.toNat + 1 = bs.length) :=
  (BlockProgress.offers h.block h.progress).2.1

/-- In `SendingData` `blk_len` is the size of the chunk at `cursor`, which lies inside the Image. -/
theorem Sending.blkLen_of_data (hs : s.state = .sendingData) :
    s.blkLen.toNat = chunkSize s.imgLen s.cursor ∧ 1 ≤ s.blkLen.toNat := by
  have hlen := h.progress.len
  obtain ⟨hs', -⟩ | ⟨-, chunk, hread, hpos, -, rfl⟩ | ⟨hs', -⟩ := State.blockBytes_cases h.block
  · simp [hs] at hs'
  · obtain ⟨hchunk, -⟩ := Memory.readMany_spec hread
    rw [layoutBlock_length] at hlen
    omega
  · simp [hs] at hs'

/-- A byte handed over that is not the last: the Block goes on. -/
theorem Sending.transferByte {b : Byte} (hb : s.txByte? = some b) (hl : s.txLast = false) :
    Sending bs (s.transferByte b) := by
  obtain ⟨hbyte, hlast, hsum⟩ := BlockProgress.offers h.block h.progress
  have hidx := h.progress.idx
  have hsucc := h.progress.idx_succ
  have hne : s.byteIdx.toNat + 1 ≠ bs.length := by simpa [hl] using hlast
  rw [hbyte] at hb
  refine ⟨h.sends, h.link_open, h.block, ?_, ?_, h.progress.kind, h.progress.len, ?_⟩
  · rw [State.transferByte_byteIdx, hsucc]; omega
  · rw [State.transferByte_txPart, State.transferByte_byteIdx, hsucc, h.progress.sent, List.take_add_one, hb]; rfl
  · rw [State.transferByte_cksAcc, State.transferByte_byteIdx, hsucc, hsum b hb]

end

theorem ClockInv.blkLenSound {s : State} (h : ClockInv s) : s.blkLenSound := by
  intro hs hne
  obtain ⟨bs, hbs⟩ := h.sending (by simp [State.sendsBlock, hs, hne, SessionState.isSending])
  apply BitVec.eq_of_toNat_eq
  rw [(hbs.blkLen_of_data hs).1, lenByte_toNat (chunkSize_le _ _)]

/-! ### States without a Block in progress, and the start of a Block -/

theorem ClockInv.of_not_busy {s : State} (hb : s.busy = false) (hc : s.cursor ≤ s.imgLen) (hd : s.drainSound)
    (ht : s.txPart = []) : ClockInv s where
  link_open := by simp [hb]
  cursor_le := hc
  image := by simp [hb]
  drain := hd
  block := by simp [State.sendsBlock_of_not_busy hb]
  no_block := fun _ => ht

theorem ClockInv.of_awaiting {s : State} (ha : s.state.isAwaiting = true) (ho : s.linkOpen = true)
    (hc : s.cursor ≤ s.imgLen) (himg : ∀ i < s.imgLen, (s.img.read i).isSome = true) (hd : s.drainSound)
    (ht : s.txPart = []) : ClockInv s where
  link_open := fun _ => ho
  cursor_le := hc
  image := fun _ => himg
  drain := hd
  block := by simp [State.sendsBlock_of_awaiting ha]
  no_block := fun _ => ht

/-- Every way into a sending state loads the working registers, and nothing of the Block is transferred. -/
theorem ClockInv.loadBlk {s : State} (ho : s.linkOpen = true) (hc : s.cursor ≤ s.imgLen)
    (himg : ∀ i < s.imgLen, (s.img.read i).isSome = true) (hd : s.drain = none) (ht : s.txPart = []) :
    ClockInv s.loadBlk where
  link_open := by simp [ho]
  cursor_le := by simpa using hc
  image := by simpa using fun _ => himg
  drain := State.drainSound_of_eq_none (by simpa using hd)
  block := fun hs => State.loadBlk_progress (by simpa using hs) hc himg ht
  no_block := by simp [ht]

/-! ### What each cycle leaves -/

theorem ClockInv.resetRegs {s : State} : ClockInv s.resetRegs :=
  .of_not_busy (by simp [State.busy]) (Nat.zero_le _) (State.drainSound_of_eq_none rfl) rfl

/-- A tick counts in a register the invariant does not speak of. -/
theorem ClockInv.tick {s : State} (h : ClockInv s) : ClockInv s.tick := by
  cases ha : s.state.isAwaiting with
  | false => rwa [State.tick_of_not_awaiting s ha]
  | true =>
    have hb : s.busy = true := by
      obtain ⟨w, hw⟩ := SessionState.isAwaiting_iff.1 ha
      exact State.busy_of_session hw
    refine .of_awaiting (by simpa using ha) (by simpa using h.link_open hb) (by simpa using h.cursor_le)
      (by simpa using h.image hb) ?_ (by simpa using h.no_block (State.sendsBlock_of_awaiting ha))
    simpa [State.drainSound] using h.drain

theorem ClockInv.tickCycle {s t : State} (h : ClockInv t) (inputs : ClockIn) : ClockInv (tickCycle inputs s t) := by
  unfold Machine.tickCycle
  split
  · exact h.tick
  · exact h

/-- The cycle of the last byte: `cursor` moves on by the chunk that has been sent (R84, R114). -/
theorem ClockInv.finishBlock {s : State} {b : Byte} (h : ClockInv s) (hs : s.sendsBlock = true)
    (hd : (s.transferByte b).finishBlock.drainSound) : ClockInv (s.transferByte b).finishBlock := by
  have hb := (State.not_awaiting_of_sendsBlock hs).2.1
  have f := SameSession.finishBlock (s.transferByte b)
  have hadv : s.blockAdvance ≤ s.imgLen - s.cursor := State.blockAdvance_le hs h.blkLenSound
  refine .of_awaiting ?_ ?_ ?_ ?_ hd rfl
  · rw [f.state]; simp
  · exact h.link_open hb
  · have hcursor : (s.transferByte b).finishBlock.cursor = s.cursor + s.blockAdvance := f.cursor
    have hlen : (s.transferByte b).finishBlock.imgLen = s.imgLen := f.imgLen
    have := h.cursor_le
    omega
  · exact h.image hb

theorem CycleCase.keeps_clockInv {inputs : ClockIn} {s t : State} (c : CycleCase inputs s t) (h : ClockInv s)
    (himg : inputs.start = true → ∀ i < inputs.imgLenI, (s.img.read i).isSome = true) : ClockInv t := by
  have hd := c.keeps_drainSound h.drain
  have hnone (ha : s.state.isAwaiting = false) := h.drain.drain_eq_none ha
  have hpart (ha : s.state.isAwaiting = true) := h.no_block (State.sendsBlock_of_awaiting ha)
  cases c with
  | rest | stall | quiet => exact h
  | latch hidle ho hstart =>
    exact .loadBlk ho (Nat.zero_le _) (himg hstart) (hnone (by rw [hidle]; rfl))
      (h.no_block (State.sendsBlock_of_not_busy (by simp [State.busy, hidle])))
  | byte hs ho _ b hb hl =>
    obtain ⟨bs, hbs⟩ := h.sending hs
    have hnext := hbs.transferByte hb hl
    exact ⟨h.link_open, h.cursor_le, h.image, hd, fun _ => ⟨bs, hnext.block, hnext.progress⟩,
      fun hs' => absurd (hs'.symm.trans hs) Bool.false_ne_true⟩
  | last hs => exact h.finishBlock hs hd
  | noData hs hc =>
    have hb : s.busy = true := by simp [State.busy, hs]
    exact .loadBlk (h.link_open hb) h.cursor_le (h.image hb) (hnone (by rw [hs]; rfl))
      (h.no_block (by simp [State.sendsBlock, hs, hc, SessionState.isSending]))
  | timeout w hw => exact .of_not_busy (by simp [State.busy]) h.cursor_le hd (hpart (by simp [hw]))
  | sample w hw | pop w hw | noAck w hw =>
    have hb := State.busy_of_session hw
    exact .of_awaiting (by simp [hw]) (h.link_open hb) h.cursor_le (h.image hb) hd (hpart (by simp [hw]))
  | ack w hw =>
    have hb := State.busy_of_session hw
    exact .loadBlk (h.link_open hb) h.cursor_le (h.image hb) rfl (hpart (by simp [hw]))

/-- Settles O59: a reset leaves `Idle`, and otherwise the core's own change and the tick after it keep the invariant. -/
theorem everyCycleKeepsTheClockedInvariant : Obligations.EveryCycleKeepsTheClockedInvariant := by
  intro inputs s t h himg hcycle
  obtain ⟨-, rfl⟩ | ⟨-, u, c, rfl⟩ := clockCycle_cases hcycle
  · exact .resetRegs
  · exact (c.keeps_clockInv h himg).tickCycle inputs

end Sys2Proof.Machine
end

section
/-! PROOFS. The family 45_link_and_ports.md, a clock cycle forwards and the ports (R112 to R118): one equation for what
the core does in each kind of state, from which it never stops, and what the ports show meanwhile. -/

namespace Sys2Proof.Machine

/-! ### A cycle without reset, and its tick -/

theorem clockCycle_of_reset {inputs : ClockIn} (hr : inputs.rst = true) (s : State) :
    clockCycle inputs s = .next s.resetRegs := by
  rw [clockCycle, if_pos hr]

theorem clockCycle_of_coreCycle {inputs : ClockIn} {s t : State} (hr : inputs.rst = false)
    (h : coreCycle inputs s = .next t) : clockCycle inputs s = .next (tickCycle inputs s t) := by
  rw [clockCycle, if_neg (by simp [hr]), h, Result.andThen_next]

theorem tickCycle_of_awaiting {s : State} (ha : s.state.isAwaiting = true) (inputs : ClockIn) (t : State) :
    tickCycle inputs s t = if inputs.tickMs = true then t.tick else t := by
  simp [tickCycle, ha]

theorem tickCycle_of_not_awaiting {s : State} (ha : s.state.isAwaiting = false) (inputs : ClockIn) (t : State) :
    tickCycle inputs s t = t := by
  simp [tickCycle, ha]

/-! ### The core's part of a cycle -/

/-- Where the core stands: outside a run, in a Block, at the step of R85, or in a wait. -/
theorem State.phase_cases (s : State) :
    s.busy = false ∨ s.sendsBlock = true ∨ (s.state = .sendingData ∧ s.cursor = s.imgLen) ∨
      ∃ w : Wait, s.state = w.session := by
  cases hb : s.busy with
  | false => exact .inl rfl
  | true =>
    obtain ⟨w, hw | hw⟩ := State.exists_wait_of_busy hb
    · by_cases hend : s.state = .sendingData ∧ s.cursor = s.imgLen
      · exact .inr (.inr (.inl hend))
      · refine .inr (.inl ?_)
        have hsend : s.state.isSending = true := by rw [hw]; simp
        simpa [State.sendsBlock, hsend] using not_and_or.1 hend
    · exact .inr (.inr (.inr ⟨w, hw⟩))

theorem coreCycle_idle {s : State} (hs : s.state = .idle) (inputs : ClockIn) :
    coreCycle inputs s =
      .next (if inputs.start = true ∧ s.linkOpen = true then
        (s.latchStart inputs.startAddrI inputs.imgLenI inputs.timeoutMsI).loadBlk else s) := by
  simp only [coreCycle, hs]
  split <;> rfl

theorem coreCycle_ended {s : State} (hs : s.state = .done ∨ s.state = .failed) (inputs : ClockIn) :
    coreCycle inputs s = .next s := by
  rcases hs with hs | hs <;> simp only [coreCycle, hs]

theorem coreCycle_noData {s : State} (hs : s.state = .sendingData) (hc : s.cursor = s.imgLen) (inputs : ClockIn) :
    coreCycle inputs s = .next (s.goto .sendingTrailer).loadBlk := by
  simp only [coreCycle, hs, hc, if_true]

theorem coreCycle_wait {s : State} {w : Wait} (hw : s.state = w.session) (inputs : ClockIn) :
    coreCycle inputs s = awaitCycle w s := by
  cases w <;> simp only [coreCycle, hw, Wait.session]

theorem coreCycle_sendsBlock {s : State} (hs : s.sendsBlock = true) (inputs : ClockIn) :
    coreCycle inputs s = sendCycle inputs s := by
  obtain hs | ⟨hs, hc⟩ | hs := s.sendsBlock_cases hs
  · simp only [coreCycle, hs]
  · simp only [coreCycle, hs, hc, if_false]
  · simp only [coreCycle, hs]

/-- A cycle of sending: a stall, the transfer of a byte that is not the last, or that of the last. -/
theorem coreCycle_sending {s : State} {b : Byte} (hs : s.sendsBlock = true) (ho : s.linkOpen = true)
    (hb : s.txByte? = some b) (inputs : ClockIn) :
    coreCycle inputs s =
      .next (if inputs.txReady = true then
        if s.txLast = true then (s.transferByte b).finishBlock else s.transferByte b
      else s) := by
  rw [coreCycle_sendsBlock hs, sendCycle, if_pos ho, hb]
  cases inputs.txReady <;> rfl

/-! ### The cycles of a wait (R115) -/

/-- The queue has been sampled: all its bytes are to pop. -/
def State.sampled (s : State) : State :=
  { s with drain := some s.rxq.length }

/-- One byte has been popped, `k` are left. -/
def State.popped (k : Nat) (s : State) : State :=
  { s with rxq := s.rxq.drop 1, rxbuf := s.rxbuf ++ s.rxq.take 1, drain := some k }

/-- No drain is in progress. -/
def State.undrained (s : State) : State :=
  { s with drain := none }

theorem awaitCycle_poll {s : State} (ho : s.linkOpen = true) (hd : s.drain = none) (w : Wait) :
    awaitCycle w s = .next (if s.timeUp = true then s.enterFailed else if s.rxq = [] then s else s.sampled) := by
  simp only [awaitCycle, hd]
  split
  case isTrue => rw [raiseNoAcknowledgment_open ho, Result.ofExcept_ok]
  case isFalse =>
    rw [linkAvail_open ho]
    cases hq : s.rxq <;> simp [State.sampled, hq]

theorem awaitCycle_pop {s : State} {k : Nat} (ho : s.linkOpen = true) (hd : s.drain = some (k + 1)) (hq : s.rxq ≠ [])
    (w : Wait) : awaitCycle w s = .next (s.popped k) := by
  have hread := linkRead_open ho (Nat.le_refl 1) (List.length_pos_iff.2 hq)
  simp only [awaitCycle, hd, hread]
  rfl

theorem awaitCycle_evaluate {s : State} (hd : s.drain = some 0) (w : Wait) :
    awaitCycle w s =
      .next (if hasNewline s.rxbuf = true then (s.undrained.acknowledge w).loadBlk else s.undrained) := by
  simp only [awaitCycle, hd]
  split <;> rfl

/-- A cycle of a wait answers: the Link is open, and a byte the drain has to pop is queued. -/
theorem awaitCycle_answers {s : State} (ho : s.linkOpen = true) (hd : s.drainSound) (w : Wait) :
    ∃ t, awaitCycle w s = .next t := by
  match hdrain : s.drain with
  | none => exact ⟨_, awaitCycle_poll ho hdrain w⟩
  | some 0 => exact ⟨_, awaitCycle_evaluate hdrain w⟩
  | some (k + 1) =>
    have hlen := (hd _ hdrain).2
    exact ⟨_, awaitCycle_pop ho hdrain (by rintro hq; simp [hq] at hlen) w⟩

/-! ### The clock never stops (R118, R122) -/

theorem ClockInv.coreCycle_answers {s : State} (h : ClockInv s) (inputs : ClockIn) :
    ∃ t, coreCycle inputs s = .next t := by
  obtain hb | hs | ⟨hs, hc⟩ | ⟨w, hw⟩ := s.phase_cases
  · rcases (State.busy_eq_false_iff s).1 hb with hs | hs
    · exact ⟨_, coreCycle_idle hs inputs⟩
    · exact ⟨_, coreCycle_ended hs inputs⟩
  · obtain ⟨bs, hbs⟩ := h.sending hs
    obtain ⟨b, -, hb⟩ := hbs.offers
    exact ⟨_, coreCycle_sending hs hbs.link_open hb inputs⟩
  · exact ⟨_, coreCycle_noData hs hc inputs⟩
  · rw [coreCycle_wait hw]
    exact awaitCycle_answers (h.link_open (State.busy_of_session hw)) h.drain w

/-- A sending state alone asks the Framer for a Block. -/
theorem State.sendsBlock_of_framerRequest {s : State} {r : Kind × List Byte} (hr : s.framerRequest? = some r) :
    s.sendsBlock = true := by
  obtain ⟨hs, -⟩ | ⟨hs, hc, -⟩ | ⟨hs, -⟩ := State.framerRequest_cases hr
  · simp [State.sendsBlock, hs, SessionState.isSending]
  · simp [State.sendsBlock, hs, hc, SessionState.isSending]
  · simp [State.sendsBlock, hs, SessionState.isSending]

/-- Inside the core the Framer is asked for Blocks it can give (R122). -/
theorem ClockInv.frInvalid_eq_false {s : State} (h : ClockInv s) (inputs : ClockIn) :
    (ports inputs s).frInvalid = false := by
  cases hr : s.framerRequest? with
  | none => simp [ports, hr]
  | some r =>
    obtain ⟨bs, hbs⟩ := h.sending (State.sendsBlock_of_framerRequest hr)
    have hframe : frame r.1 r.2 = some bs := by simpa [State.blockBytes?, hr] using hbs.block
    simp [ports, hr, hframe]

/-- Settles O58: reset always answers, and so does the core in each kind of state. -/
theorem clockNeverStops : Obligations.ClockNeverStops := by
  intro inputs s h
  refine ⟨?_, h.frInvalid_eq_false inputs⟩
  cases hr : inputs.rst with
  | true => exact ⟨_, clockCycle_of_reset hr s⟩
  | false =>
    obtain ⟨t, ht⟩ := h.coreCycle_answers inputs
    exact ⟨_, clockCycle_of_coreCycle hr ht⟩

/-! ### The transmit port and the Image port (R114, R116) -/

/-- Settles O54: the byte offered is the one at `byte_idx` of the Block in progress. -/
theorem transmitPortOffersTheBlock : Obligations.TransmitPortOffersTheBlock := by
  intro inputs s h hs hr
  obtain ⟨bs, hbs⟩ := h.sending hs
  obtain ⟨b, hget, hb⟩ := hbs.offers
  refine ⟨bs, b, hbs.block, hget, ?_⟩
  simp [ports, hr, hs, hb, hbs.txLast_eq]

/-- Settles O55: the port is driven for payload bytes of a Data Block, whose length is that of the chunk at `cursor`. -/
theorem imagePortStaysInTheImage : Obligations.ImagePortStaysInTheImage := by
  intro inputs s addr h haddr
  obtain ⟨⟨hs, hc, hlo, hhi⟩, rfl⟩ :
      (s.state = .sendingData ∧ s.cursor ≠ s.imgLen ∧ 4 ≤ s.byteIdx.toNat ∧ s.byteIdx.toNat < 4 + s.blkLen.toNat) ∧
        s.imgAddr = addr := by
    simpa [ports] using haddr
  obtain ⟨bs, hbs⟩ := h.sending (by simp [State.sendsBlock, hs, hc, SessionState.isSending])
  have hlen := (hbs.blkLen_of_data hs).1
  have hle := chunkSize_le s.imgLen s.cursor
  have hrest := chunkSize_le_rest s.imgLen s.cursor
  refine ⟨hs, ?_⟩
  unfold State.imgAddr
  omega

/-! ### Reset and the status outputs (R113, R20, R28, R29) -/

/-- Settles O53: reset is tested first; the status outputs are read off `state` and `err` value by value. -/
theorem resetWinsTheCycle : Obligations.ResetWinsTheCycle := by
  refine ⟨fun inputs s hr => ⟨clockCycle_of_reset hr s, ?_⟩, fun inputs s => ⟨rfl, ?states, ?errors⟩⟩
  · simp [ports, hr]
  case states =>
    intro st code d f b hrow hs
    subst hs
    cases hs : s.state
    all_goals
      simp [hs] at hrow
      obtain ⟨rfl, rfl, rfl, rfl⟩ := hrow
      simp [ports, State.doneOut, State.failedOut, State.busy, SessionState.code, hs]
  case errors =>
    intro e code hrow he
    subst he
    cases he : s.err
    all_goals
      simp [he] at hrow
      simp [ports, ErrKind.code, he, hrow]

end Sys2Proof.Machine
end

section
/-! PROOFS. The family 45_link_and_ports.md, the refinement (R119): each cycle of the clocked hardware is the steps of
the transaction level that `cycleEvents` lists, on the view of a clocked state. -/

namespace Sys2Proof.Machine

/-! ### The view (R119) -/

theorem SessionState.ne_idle_of_awaiting {st : SessionState} (ha : st.isAwaiting = true) : st ≠ .idle := by
  rintro rfl
  cases ha

@[simp] theorem Wait.next_ne_idle (w : Wait) : w.next ≠ .idle := by cases w <;> decide

@[simp] theorem Wait.session_ne_idle (w : Wait) : w.session ≠ .idle := by cases w <;> decide

section
variable (s : State)

@[simp] theorem State.view_state : s.view.state = s.state := rfl
@[simp] theorem State.view_cursor : s.view.cursor = s.cursor := rfl
@[simp] theorem State.view_linkOpen : s.view.linkOpen = s.linkOpen := rfl
@[simp] theorem State.view_rxq : s.view.rxq = s.rxq := rfl
@[simp] theorem State.view_rxbuf : s.view.rxbuf = s.rxbuf := rfl
@[simp] theorem State.view_txlog : s.view.txlog = s.txlog := rfl

theorem State.view_imgLen (hi : s.state ≠ .idle) : s.view.imgLen = s.imgLen := by simp [State.view, hi]

@[simp] theorem State.view_sendsBlock : s.view.sendsBlock = s.sendsBlock := by
  cases hs : s.state <;> simp [State.sendsBlock, State.view, hs, SessionState.isSending]

@[simp] theorem State.view_blockBytes : s.view.blockBytes? = s.blockBytes? := by
  cases hs : s.state <;> simp [State.blockBytes?, State.framerRequest?, State.view, hs]

@[simp] theorem State.view_view : s.view.view = s.view := by
  cases hs : s.state <;> simp [State.view, hs, SessionState.isAwaiting, SessionState.wait?]

theorem State.view_timeUp (ha : s.state.isAwaiting = true) : s.view.timeUp = s.timeUp := by
  simp [State.timeUp, State.view, ha, SessionState.ne_idle_of_awaiting ha]

end

/-! ### The view after an update: what it erases is not read

The updates of a run leave a state that is not `Idle`, and so do not read the registers the view of `Idle` erases. -/

section
variable (s : State)

theorem State.view_tick : s.view.tick.view = s.tick.view := by
  cases hs : s.state <;> simp [State.tick, State.view, hs, SessionState.isAwaiting, SessionState.wait?]

theorem State.view_latchStart (a : Word16) (n : Nat) (v : Word16) :
    (s.view.latchStart a n v).view = (s.latchStart a n v).view := rfl

theorem State.view_resetRegs : s.view.resetRegs.view = s.resetRegs.view := rfl

variable {s} (hi : s.state ≠ .idle)
include hi

theorem State.view_goto_sendingTrailer : (s.view.goto .sendingTrailer).view = (s.goto .sendingTrailer).view := by
  simp [State.view, State.goto, hi, SessionState.isAwaiting, SessionState.wait?]

theorem State.view_enterFailed : s.view.enterFailed.view = s.enterFailed.view := by
  simp [State.view, State.enterFailed, hi, SessionState.isAwaiting, SessionState.wait?]

theorem State.view_readAll : s.view.readAll.view = s.readAll.view := by
  rw [State.readAll_eq, State.readAll_eq]
  cases ha : s.state.isAwaiting <;> simp [State.view, hi, ha]

theorem State.view_readAll_acknowledge (w : Wait) :
    (s.view.readAll.acknowledge w).view = (s.readAll.acknowledge w).view := by
  simp [State.view, State.acknowledge, hi]

end

/-! ### A drain seen from the transaction level (R115) -/

/-- The `k` bytes a drain has still to pop, read at once. -/
def State.readDrain (k : Nat) (s : State) : State :=
  { s with rxbuf := s.rxbuf ++ s.rxq.take k, rxq := s.rxq.drop k, drain := none }

theorem State.drained_of_drain_none {s : State} (hd : s.drain = none) : s.drained = s := by
  obtain ⟨⟩ := s
  cases hd
  rfl

theorem State.transaction_of_drain_none {s : State} (hd : s.drain = none) : s.transaction = s.view := by
  rw [State.transaction, State.drained_of_drain_none hd]

theorem State.drained_of_drain_some {s : State} {w : Wait} {k : Nat} (hw : s.state = w.session)
    (hd : s.drain = some k) :
    s.drained =
      if hasNewline (s.rxbuf ++ s.rxq.take k) = true then (s.readDrain k).acknowledge w else s.readDrain k := by
  have hwait := SessionState.wait?_eq_some.2 hw
  simp only [State.drained, hd, hwait]
  rfl

theorem State.readDrain_tick (k : Nat) (s : State) : s.tick.readDrain k = (s.readDrain k).tick := by
  unfold State.tick State.readDrain
  split <;> rfl

/-- The time of a wait that has ended is not seen. -/
theorem State.view_tick_acknowledge (w : Wait) (s : State) : (s.tick.acknowledge w).view = (s.acknowledge w).view := by
  simp [State.view, State.acknowledge]

/-- A tick of a cycle in a wait is a tick after the poll step the drain stands for (R115). -/
theorem State.transaction_tick {s : State} (hd : s.drainSound) : s.tick.transaction = s.transaction.tick.view := by
  rw [State.transaction, State.transaction, State.view_tick]
  cases hdrain : s.drain with
  | none => rw [State.drained_of_drain_none hdrain, State.drained_of_drain_none (by simpa using hdrain)]
  | some k =>
    obtain ⟨w, hw⟩ := SessionState.isAwaiting_iff.1 (hd k hdrain).1
    rw [State.drained_of_drain_some hw hdrain, State.drained_of_drain_some (s := s.tick) (by simpa using hw)
      (by simpa using hdrain), State.tick_rxbuf, State.tick_rxq, State.readDrain_tick]
    split
    · rw [State.view_tick_acknowledge, State.tick_of_not_awaiting (State.acknowledge w _) (by simp)]
    · rfl

/-! ### The steps of the transaction level -/

theorem eventsOf_core {s t : State} (h : coreStep s = .next t) : eventsOf [.core] s = .next t := by
  rw [eventsOf, execEvent, exec_coreInstr, h]
  rfl

theorem eventsOf_tickEvents (inputs : ClockIn) (s : State) :
    eventsOf (tickEvents inputs) s = .next (if inputs.tickMs = true then s.tick else s) := by
  cases htick : inputs.tickMs <;> simp [tickEvents, htick] <;> rfl

/-- Outside the waits the tick of a cycle changes nothing and stands first. -/
theorem eventsOf_tickEvents_append {s : State} (ha : s.state.isAwaiting = false) (inputs : ClockIn) (es : List Event) :
    eventsOf (tickEvents inputs ++ es) s = eventsOf es s := by
  rw [eventsOf_append, eventsOf_tickEvents, State.tick_of_not_awaiting s ha, ite_self, Result.andThen_next]

/-- What a sending step leaves: the write `bs`, `cursor` past its payload, the wait (R83, R84, R86). -/
def State.sentBlock (bs : List Byte) (s : State) : State :=
  ((s.pushWrite bs).advance (if s.state = .sendingData then bs.length - 6 else 0)).enterAwait s.state.blockWait

/-- The core's step of a sending state sends the Block of that state. -/
theorem coreStep_sentBlock {s : State} {bs : List Byte} (ho : s.linkOpen = true) (hb : s.blockBytes? = some bs) :
    coreStep s = .next (s.sentBlock bs) := by
  obtain ⟨hs, rfl⟩ | ⟨hs, chunk, hread, hpos, hle, rfl⟩ | ⟨hs, rfl⟩ := State.blockBytes_cases hb
  · rw [coreStep_sendStart hs ho, State.sentBlock, hs]; rfl
  · obtain ⟨hlen, -⟩ := Memory.readMany_spec hread
    have hsize := chunkSize_le_rest s.imgLen s.cursor
    have hseg : segNext s = .ok (some chunk) := by
      rw [segNext, if_neg (by omega), memRead, if_neg (by omega), hread]
    rw [coreStep_sendData hs ho (by omega) hseg hpos hle, State.sentBlock, hs, if_pos rfl, layoutBlock_length,
      Nat.add_sub_cancel]
    rfl
  · rw [coreStep_sendTrailer hs ho, State.sentBlock, hs]; rfl

theorem State.view_sentBlock {s : State} (hi : s.state ≠ .idle) (bs : List Byte) :
    (s.view.sentBlock bs).view = (s.sentBlock bs).view := by
  simp [State.view, State.sentBlock, State.pushWrite, State.advance, State.enterAwait, hi]

/-- The cycle of the last byte leaves what the sending step leaves (R114). -/
theorem Sending.finishBlock_view {bs : List Byte} {s : State} {b : Byte} (h : Sending bs s) (hb : s.txByte? = some b)
    (hl : s.txLast = true) : (s.transferByte b).finishBlock.view = (s.sentBlock bs).view := by
  have hpart := BlockProgress.complete h.block h.progress hb hl
  have hlen := h.progress.len
  have hadvance : bs.length - 6 = s.blkLen.toNat := by omega
  by_cases hs : s.state = .sendingData <;>
    simp [State.view, State.finishBlock, State.sentBlock, State.pushWrite, State.advance, State.enterAwait,
      State.freeWork, hs, hpart, hadvance]

/-! ### The steps a cycle stands for -/

section
variable {inputs : ClockIn} {s : State} (hr : inputs.rst = false)
include hr

theorem cycleEvents_awaiting (ha : s.state.isAwaiting = true) :
    cycleEvents inputs s = (if s.drain.isNone = true then [.core] else []) ++ tickEvents inputs := by
  simp [cycleEvents, hr, ha]

theorem cycleEvents_idle (hs : s.state = .idle) :
    cycleEvents inputs s = tickEvents inputs ++
      (if inputs.start = true then [.start inputs.startAddrI inputs.imgLenI inputs.timeoutMsI] else []) := by
  simp [cycleEvents, hr, hs, SessionState.isAwaiting, SessionState.wait?]

theorem cycleEvents_ended (hs : s.state = .done ∨ s.state = .failed) : cycleEvents inputs s = tickEvents inputs := by
  rcases hs with hs | hs <;>
    simp [cycleEvents, hr, hs, SessionState.isAwaiting, SessionState.wait?, SessionState.isSending]

theorem cycleEvents_sendsBlock (hs : s.sendsBlock = true) :
    cycleEvents inputs s =
      tickEvents inputs ++ (if inputs.txReady = true ∧ s.txLast = true then [.core] else []) := by
  obtain ⟨ha, -, hi⟩ := State.not_awaiting_of_sendsBlock hs
  have hsend : s.state.isSending = true := by
    rcases s.sendsBlock_cases hs with hs | ⟨hs, -⟩ | hs <;> rw [hs] <;> rfl
  simp [cycleEvents, hr, ha, hi, hsend, hs]

theorem cycleEvents_noData (hs : s.state = .sendingData) (hc : s.cursor = s.imgLen) :
    cycleEvents inputs s = tickEvents inputs ++ [.core] := by
  simp [cycleEvents, hr, hs, hc, State.sendsBlock, SessionState.isAwaiting, SessionState.wait?,
    SessionState.isSending]

end

/-! ### The cycles of a wait (R115) -/

theorem State.sampled_transaction {s : State} {w : Wait} (hw : s.state = w.session) (hd : s.drain = none) :
    s.sampled.transaction =
      (if hasNewline (s.rxbuf ++ s.rxq) = true then s.readAll.acknowledge w else s.readAll).view := by
  have hread : s.sampled.readDrain s.rxq.length = s.readAll := by simp [State.sampled, State.readDrain, hd]
  have hqueue : s.sampled.rxq.take s.rxq.length = s.rxq := List.take_length
  rw [State.transaction, State.drained_of_drain_some (s := s.sampled) hw rfl, hread, hqueue]
  rfl

/-- A byte popped was read when the queue was sampled. -/
theorem State.popped_transaction {s : State} {w : Wait} {k : Nat} (hw : s.state = w.session)
    (hd : s.drain = some (k + 1)) : (s.popped k).transaction = s.transaction := by
  have hbuf : (s.popped k).rxbuf ++ (s.popped k).rxq.take k = s.rxbuf ++ s.rxq.take (k + 1) := by
    simp [State.popped, Nat.add_comm k, List.take_add]
  have hread : (s.popped k).readDrain k = s.readDrain (k + 1) := by
    simp only [State.readDrain, hbuf]
    simp [State.popped]
  rw [State.transaction, State.transaction, State.drained_of_drain_some (s := s.popped k) hw rfl,
    State.drained_of_drain_some hw hd, hread, hbuf]

/-- The buffer was evaluated when the queue was sampled. -/
theorem State.evaluated_transaction {s : State} {w : Wait} (hw : s.state = w.session) (hd : s.drain = some 0) :
    (if hasNewline s.rxbuf = true then (s.undrained.acknowledge w).loadBlk else s.undrained).transaction =
      s.transaction := by
  have hread : s.readDrain 0 = s.undrained := by simp [State.readDrain, State.undrained]
  rw [State.transaction_of_drain_none (by split <;> simp [State.undrained]), State.transaction,
    State.drained_of_drain_some hw hd, hread, List.take_zero, List.append_nil]
  split
  · exact State.loadBlk_view _
  · rfl

/-- In a wait the core's own change is the poll step where the cycle samples the queue, and nothing elsewhere. -/
theorem awaitCycle_refines {s t : State} {w : Wait} (hw : s.state = w.session) (ho : s.linkOpen = true)
    (hd : s.drainSound) (h : awaitCycle w s = .next t) :
    ∃ u, eventsOf (if s.drain.isNone = true then [.core] else []) s.transaction = .next u ∧
      u.view = t.transaction := by
  have ha : s.state.isAwaiting = true := by simp [hw]
  have hi := SessionState.ne_idle_of_awaiting ha
  match hdrain : s.drain with
  | none =>
    cases (awaitCycle_poll ho hdrain w).symm.trans h
    have hpoll := (coreStep_wait (s := s.view) hw).trans (execAwaitPoll_open hw ho)
    rw [State.transaction_of_drain_none hdrain]
    refine ⟨_, eventsOf_core hpoll, ?_⟩
    rw [State.view_timeUp s ha, State.view_rxq, State.view_rxbuf]
    split
    case isTrue =>
      exact (State.view_enterFailed hi).trans (State.transaction_of_drain_none (s := s.enterFailed) hdrain).symm
    case isFalse =>
      split
      case isTrue => exact (State.view_view s).trans (State.transaction_of_drain_none hdrain).symm
      case isFalse =>
        rw [State.sampled_transaction hw hdrain]
        split
        · exact State.view_readAll_acknowledge hi w
        · exact State.view_readAll hi
  | some 0 =>
    cases (awaitCycle_evaluate hdrain w).symm.trans h
    exact ⟨_, rfl, (State.view_view _).trans (State.evaluated_transaction hw hdrain).symm⟩
  | some (k + 1) =>
    have hq : s.rxq ≠ [] := by
      have hlen := (hd _ hdrain).2
      rintro hq
      simp [hq] at hlen
    cases (awaitCycle_pop ho hdrain hq w).symm.trans h
    exact ⟨_, rfl, (State.view_view _).trans (State.popped_transaction hw hdrain).symm⟩

/-! ### The cycles outside the waits -/

/-- A cycle without reset in which the core leaves `t`: with its tick it is the transaction-level steps of the cycle. -/
def CycleRefines (inputs : ClockIn) (s t : State) : Prop :=
  ∃ u, eventsOf (cycleEvents inputs s) s.transaction = .next u ∧ u.view = (tickCycle inputs s t).transaction

/-- Outside the waits no drain is in progress, so a cycle is the steps that follow its tick, on views. -/
theorem cycle_refines_of_not_awaiting {inputs : ClockIn} {s t u : State} {es : List Event} (hd : s.drainSound)
    (ha : s.state.isAwaiting = false) (htd : t.drain = s.drain) (hes : cycleEvents inputs s = tickEvents inputs ++ es)
    (hrun : eventsOf es s.view = .next u) (hv : u.view = t.view) : CycleRefines inputs s t := by
  have hnone := hd.drain_eq_none ha
  unfold CycleRefines
  rw [State.transaction_of_drain_none hnone, tickCycle_of_not_awaiting ha,
    State.transaction_of_drain_none (htd.trans hnone), hes, eventsOf_tickEvents_append (s := s.view) ha]
  exact ⟨u, hrun, hv⟩

/-- The start command at both levels (R110). -/
theorem idle_refines {inputs : ClockIn} {s t : State} (hd : s.drainSound) (hr : inputs.rst = false)
    (hs : s.state = .idle) (h : coreCycle inputs s = .next t) :
    CycleRefines inputs s t := by
  have ha : s.state.isAwaiting = false := by rw [hs]; rfl
  cases (coreCycle_idle hs inputs).symm.trans h
  cases hstart : inputs.start with
  | false =>
    refine cycle_refines_of_not_awaiting hd ha (by simp) (cycleEvents_idle hr hs) (u := s.view) ?_ (by simp)
    rw [hstart]; rfl
  | true =>
    refine cycle_refines_of_not_awaiting hd ha (by split <;> simp) (cycleEvents_idle hr hs)
      (u := if s.linkOpen = true then s.view.latchStart inputs.startAddrI inputs.imgLenI inputs.timeoutMsI else s.view)
      ?_ ?_
    · rw [hstart, if_pos rfl]
      cases ho : s.linkOpen <;> simp [eventsOf, execEvent, exec, execHostStart, hs, ho]
    · cases ho : s.linkOpen <;> simp [State.view_latchStart]

/-- A Block byte by byte: its last byte is the sending step (R114). -/
theorem sending_refines {inputs : ClockIn} {s t : State} {bs : List Byte} (hb : Sending bs s) (hd : s.drainSound)
    (hr : inputs.rst = false) (h : coreCycle inputs s = .next t) :
    CycleRefines inputs s t := by
  obtain ⟨ha, -, hi⟩ := State.not_awaiting_of_sendsBlock hb.sends
  obtain ⟨b, -, hbyte⟩ := hb.offers
  cases (coreCycle_sending hb.sends hb.link_open hbyte inputs).symm.trans h
  by_cases hlast : inputs.txReady = true ∧ s.txLast = true
  · have hstep : coreStep s.view = .next (s.view.sentBlock bs) :=
      coreStep_sentBlock hb.link_open ((State.view_blockBytes s).trans hb.block)
    refine cycle_refines_of_not_awaiting hd ha ?_ (cycleEvents_sendsBlock hr hb.sends) (u := s.view.sentBlock bs) ?_ ?_
    · simp [hlast, State.finishBlock]
    · rw [if_pos hlast]
      exact eventsOf_core hstep
    · rw [if_pos hlast.1, if_pos hlast.2, hb.finishBlock_view hbyte hlast.2, State.view_sentBlock hi]
  · have hkeep : (if inputs.txReady = true then
          if s.txLast = true then (s.transferByte b).finishBlock else s.transferByte b
        else s) = if inputs.txReady = true then s.transferByte b else s := by
      split
      · rw [if_neg fun hl => hlast ⟨‹_›, hl⟩]
      · rfl
    rw [hkeep]
    refine cycle_refines_of_not_awaiting hd ha ?_ (cycleEvents_sendsBlock hr hb.sends) (u := s.view) ?_ ?_
    · split <;> rfl
    · rw [if_neg hlast]; rfl
    · rw [State.view_view]; split <;> rfl

/-- The step of R85 (log entry 35). -/
theorem noData_refines {inputs : ClockIn} {s t : State} (hd : s.drainSound) (hr : inputs.rst = false)
    (hs : s.state = .sendingData) (hc : s.cursor = s.imgLen) (h : coreCycle inputs s = .next t) :
    CycleRefines inputs s t := by
  have hi : s.state ≠ .idle := by simp [hs]
  cases (coreCycle_noData hs hc inputs).symm.trans h
  have hstep : coreStep s.view = .next (s.view.goto .sendingTrailer) :=
    coreStep_noData hs (hc.trans (State.view_imgLen s hi).symm)
  refine cycle_refines_of_not_awaiting hd (by rw [hs]; rfl) (by simp) (cycleEvents_noData hr hs hc)
    (eventsOf_core hstep) ?_
  rw [State.loadBlk_view, State.view_goto_sendingTrailer hi]

theorem ended_refines {inputs : ClockIn} {s t : State} (hd : s.drainSound) (hr : inputs.rst = false)
    (hs : s.state = .done ∨ s.state = .failed) (h : coreCycle inputs s = .next t) :
    CycleRefines inputs s t := by
  cases (coreCycle_ended hs inputs).symm.trans h
  refine cycle_refines_of_not_awaiting hd (by rcases hs with hs | hs <;> rw [hs] <;> rfl) rfl (es := []) ?_ rfl
    (State.view_view s)
  rw [cycleEvents_ended hr hs, List.append_nil]

/-! ### Every cycle -/

/-- The poll step of a wait, and the tick of the cycle after it. -/
theorem wait_refines {inputs : ClockIn} {s t : State} {w : Wait} (ho : s.linkOpen = true) (hd : s.drainSound)
    (hr : inputs.rst = false) (hw : s.state = w.session) (h : coreCycle inputs s = .next t) :
    CycleRefines inputs s t := by
  have ha : s.state.isAwaiting = true := by simp [hw]
  have htd := (coreCycle_cases h).keeps_drainSound hd
  obtain ⟨u, hu, hv⟩ := awaitCycle_refines hw ho hd ((coreCycle_wait hw inputs).symm.trans h)
  unfold CycleRefines
  rw [cycleEvents_awaiting hr ha, eventsOf_append, hu, Result.andThen_next, eventsOf_tickEvents,
    tickCycle_of_awaiting ha]
  refine ⟨_, rfl, ?_⟩
  split
  · rw [State.transaction_tick htd, ← hv, State.view_tick]
  · exact hv

/-- A cycle without reset (R119). -/
theorem coreCycle_refines {inputs : ClockIn} {s t : State} (hs : ClockInv s) (hr : inputs.rst = false)
    (h : coreCycle inputs s = .next t) :
    CycleRefines inputs s t := by
  obtain hb | hsend | ⟨hdata, hc⟩ | ⟨w, hw⟩ := s.phase_cases
  · rcases (State.busy_eq_false_iff s).1 hb with hidle | hend
    · exact idle_refines hs.drain hr hidle h
    · exact ended_refines hs.drain hr hend h
  · obtain ⟨bs, hbs⟩ := hs.sending hsend
    exact sending_refines hbs hs.drain hr h
  · exact noData_refines hs.drain hr hdata hc h
  · exact wait_refines (hs.link_open (State.busy_of_session hw)) hs.drain hr hw h

/-- After a reset the queue and the echo alone tell whether a drain was in progress (log entry 18). -/
theorem State.drained_resetRegs (s : State) :
    { s.drained.resetRegs.view with rxq := [], diag := [] } = { s.resetRegs.view with rxq := [], diag := [] } := by
  unfold State.drained
  split
  · dsimp only
    split <;> rfl
  · rfl

/-- Settles O60: reset is one step at both levels; the other cycles are followed by the kind of state they start in. -/
theorem clockRefinesTheTransactionLevel : Obligations.ClockRefinesTheTransactionLevel := by
  intro inputs s t hs hcycle
  cases hr : inputs.rst with
  | true =>
    cases (clockCycle_of_reset hr s).symm.trans hcycle
    have hreset : s.resetRegs.transaction = s.resetRegs.view := State.transaction_of_drain_none rfl
    refine ⟨s.transaction.resetRegs, by simp only [cycleEvents, hr]; rfl, fun h => ?_, ?_⟩
    · have hd : s.drain = none := h.resolve_left (by simp)
      rw [hreset, State.transaction_of_drain_none hd, State.view_resetRegs]
    · rw [hreset]
      exact State.drained_resetRegs s
  | false =>
    obtain ⟨v, hv⟩ := hs.coreCycle_answers inputs
    cases (clockCycle_of_coreCycle hr hv).symm.trans hcycle
    obtain ⟨u, hu, heq⟩ := coreCycle_refines hs hr hv
    exact ⟨u, hu, fun _ => heq, by rw [heq]⟩

end Sys2Proof.Machine
end

section
/-! PROOFS. The family 45_link_and_ports.md, a whole Block and a whole drain (R114, R115, R117, R118): runs of cycles,
by induction over the cycles or over the bytes still to go. -/

namespace Sys2Proof.Machine

theorem tickCycle_of_not_ticking {c : ClockIn} (h : c.tickMs = false) (s t : State) : tickCycle c s t = t := by
  simp [tickCycle, h]

/-! ### A cycle of sending -/

/-- The core's own change: ticks meanwhile change nothing (log entry 19). -/
theorem Sending.clockCycle_eq {bs : List Byte} {s : State} {b : Byte} {c : ClockIn} (h : Sending bs s)
    (hr : c.rst = false) (hb : s.txByte? = some b) :
    clockCycle c s =
      .next (if c.txReady = true then
        if s.txLast = true then (s.transferByte b).finishBlock else s.transferByte b
      else s) := by
  have ha := (State.not_awaiting_of_sendsBlock h.sends).1
  rw [clockCycle_of_coreCycle hr (coreCycle_sending h.sends h.link_open hb c), tickCycle_of_not_awaiting ha]

/-! ### A Block byte by byte (R114) -/

/-- Short of the last byte the Block goes on: each cycle with `tx_ready` hands over one byte, and the transaction level
sees no change. -/
theorem Sending.cycles_short_of_last {bs : List Byte} (w : List Byte) (cs : List ClockIn) {s : State} (h : Sending bs s)
    (hwire : s.wire = w ++ s.txPart) (hr : ∀ c ∈ cs, c.rst = false)
    (hlt : s.byteIdx.toNat + cs.countP ClockIn.txReady < bs.length) :
    ∃ t, cyclesOf cs s = .next t ∧ Sending bs t ∧ t.wire = w ++ t.txPart ∧ t.view = s.view ∧
      t.byteIdx.toNat = s.byteIdx.toNat + cs.countP ClockIn.txReady := by
  induction cs generalizing s with
  | nil => exact ⟨s, rfl, h, hwire, rfl, rfl⟩
  | cons c cs ih =>
    obtain ⟨hrc, hrcs⟩ := List.forall_mem_cons.1 hr
    obtain ⟨b, -, hb⟩ := h.offers
    rw [cyclesOf, h.clockCycle_eq hrc hb]
    cases hready : c.txReady with
    | false =>
      rw [List.countP_cons_of_neg (by simp [hready])] at hlt ⊢
      exact ih h hwire hrcs hlt
    | true =>
      rw [List.countP_cons_of_pos hready] at hlt ⊢
      have hl : s.txLast = false := by rw [h.txLast_eq]; simp; omega
      have hidx : (s.transferByte b).byteIdx.toNat = s.byteIdx.toNat + 1 := h.progress.idx_succ
      have hwire' : (s.transferByte b).wire = w ++ (s.transferByte b).txPart := by simp [hwire]
      rw [hl]
      obtain ⟨t, hrun, ht, htw, htv, hti⟩ := ih (h.transferByte hb hl) hwire' hrcs (by omega)
      exact ⟨t, hrun, ht, htw, htv, by omega⟩

/-- A whole Block: with its last byte the registers are those the sending step leaves. -/
theorem Sending.whole_block {bs : List Byte} {s : State} {cs : List ClockIn} {last : ClockIn} (h : Sending bs s)
    (h0 : s.byteIdx = 0) (hr : ∀ c ∈ cs ++ [last], c.rst = false) (hready : last.txReady = true)
    (hcount : (cs ++ [last]).countP ClockIn.txReady = bs.length) :
    ∃ t, cyclesOf (cs ++ [last]) s = .next t ∧ t.view = (s.sentBlock bs).view ∧ t.txlog = s.txlog ++ [bs] ∧
      t.wire = s.wire ++ bs := by
  have hi := (State.not_awaiting_of_sendsBlock h.sends).2.2
  have hpart : s.txPart = [] := by rw [h.progress.sent, h0]; rfl
  rw [List.countP_append, List.countP_singleton, if_pos hready] at hcount
  obtain ⟨hrcs, hrlast⟩ := List.forall_mem_append.1 hr
  have hidx : s.byteIdx.toNat = 0 := by rw [h0]; rfl
  obtain ⟨t, hrun, ht, hwire, hview, hti⟩ := h.cycles_short_of_last s.wire cs (by simp [hpart]) hrcs (by omega)
  obtain ⟨b, -, hb⟩ := ht.offers
  have hl : t.txLast = true := by rw [ht.txLast_eq]; simp; omega
  have hbs : t.txPart ++ [b] = bs := ht.progress.complete ht.block hb hl
  have hsent : (t.transferByte b).finishBlock.view = (s.sentBlock bs).view := by
    have hti : t.state ≠ .idle := (State.not_awaiting_of_sendsBlock ht.sends).2.2
    rw [ht.finishBlock_view hb hl, ← State.view_sentBlock hti, hview, State.view_sentBlock hi]
  have hlog : t.view.txlog = s.view.txlog := congrArg State.txlog hview
  refine ⟨(t.transferByte b).finishBlock, ?_, hsent, ?_, ?_⟩
  · have hcycle := ht.clockCycle_eq (hrlast last (by simp)) hb
    rw [if_pos hready, if_pos hl] at hcycle
    rw [cyclesOf_append, hrun, Result.andThen_next, cyclesOf, hcycle]
    rfl
  · simpa [State.finishBlock, hbs] using hlog
  · simp [State.finishBlock, hwire, hbs]

/-! ### The stand-alone Framer (R118) -/

/-- One cycle of the stand-alone Framer while it sends: a byte handed over with `tx_last`, or a stall. -/
theorem FramerUnit.transfers_sending {c : FramerIn} (hr : c.rst = false) (b : Byte) (rest : List Byte)
    (cs : List FramerIn) :
    FramerUnit.transfers (c :: cs) (.sending (b :: rest)) =
      if c.txReady = true then (b, rest.isEmpty) :: FramerUnit.transfers cs (FramerUnit.remaining rest)
      else FramerUnit.transfers cs (.sending (b :: rest)) := by
  cases hready : c.txReady <;> simp [FramerUnit.transfers, hr, hready]

theorem FramerUnit.ports_frInvalid_of_sending (c : FramerIn) (rest : List Byte) :
    ((FramerUnit.sending rest).ports c).frInvalid = false := by
  cases hr : c.rst <;> simp [FramerUnit.ports, hr]

/-- A Block on the transmit port of the stand-alone Framer: `b :: rest` with the cycles that hand it over, the last of
which hands over the last byte. -/
theorem FramerUnit.sending_cycles {cs : List FramerIn} {last : FramerIn} (b : Byte) (rest : List Byte)
    (hr : ∀ c ∈ cs ++ [last], c.rst = false) (hready : last.txReady = true)
    (hcount : cs.countP FramerIn.txReady = rest.length) :
    FramerUnit.transfers (cs ++ [last]) (.sending (b :: rest)) =
        (b :: rest).dropLast.map (fun x => (x, false)) ++ [((b :: rest).getLast (by simp), true)] ∧
      FramerUnit.cycles (cs ++ [last]) (.sending (b :: rest)) = .idle ∧
      ∀ k ≤ cs.length, ((FramerUnit.cycles (cs.take k) (.sending (b :: rest))).ports last).frInvalid = false := by
  induction cs generalizing b rest with
  | nil =>
    obtain rfl : rest = [] := List.length_eq_zero_iff.1 hcount.symm
    have hrlast : last.rst = false := hr last (by simp)
    refine ⟨?_, ?_, fun k hk => ?_⟩
    · rw [List.nil_append, FramerUnit.transfers_sending hrlast, if_pos hready]; rfl
    · simp [FramerUnit.cycles, hrlast, hready, FramerUnit.remaining]
    · rw [List.take_nil]
      exact FramerUnit.ports_frInvalid_of_sending last _
  | cons c cs ih =>
    obtain ⟨hrc, hrcs⟩ := List.forall_mem_cons.1 hr
    have hnow := FramerUnit.ports_frInvalid_of_sending last (b :: rest)
    rw [List.cons_append, FramerUnit.transfers_sending hrc]
    cases hc : c.txReady with
    | false =>
      rw [List.countP_cons_of_neg (by simp [hc])] at hcount
      obtain ⟨htransfers, hend, hquiet⟩ := ih b rest hrcs hcount
      refine ⟨htransfers, ?_, fun k hk => ?_⟩
      · simpa [FramerUnit.cycles, hrc, hc] using hend
      · cases k with
        | zero => exact hnow
        | succ k => simpa [FramerUnit.cycles, hrc, hc] using hquiet k (by simpa using hk)
    | true =>
      rw [List.countP_cons_of_pos hc] at hcount
      cases rest with
      | nil => simp at hcount
      | cons b' rest =>
        obtain ⟨htransfers, hend, hquiet⟩ := ih b' rest hrcs (by simpa using hcount)
        refine ⟨?_, ?_, fun k hk => ?_⟩
        · rw [if_pos rfl, FramerUnit.remaining, htransfers]; rfl
        · simpa [FramerUnit.cycles, hrc, hc, FramerUnit.remaining] using hend
        · cases k with
          | zero => exact hnow
          | succ k => simpa [FramerUnit.cycles, hrc, hc, FramerUnit.remaining] using hquiet k (by simpa using hk)

/-- Settles O56: the Block in progress from its first byte, and the Block a legal request loads. -/
theorem blockGoesOutByteByByte : Obligations.BlockGoesOutByteByByte := by
  refine ⟨?core, ?framer⟩
  case core =>
    intro cs last s bs h hs h0 hbs hr hready hcount
    obtain ⟨bs', h'⟩ := h.sending hs
    obtain rfl : bs' = bs := Option.some.inj (h'.block.symm.trans hbs)
    obtain ⟨t, hrun, hview, hlog, hwire⟩ := h'.whole_block h0 hr hready hcount
    exact ⟨t, _, hrun, (exec_coreInstr s).trans (coreStep_sentBlock h'.link_open hbs), hview, hlog, hwire⟩
  case framer =>
    intro kind payload bs req cs last u hframe hu hreq hrequest hr hready hcount
    obtain ⟨-, rfl⟩ := frame_eq_some_iff.1 hframe
    have hloaded : u.cycle req = .sending (layoutBlock kind payload) :=
      calc u.cycle req
        _ = FramerUnit.take req.request := FramerUnit.cycle_of_not_sending hu hreq
        _ = FramerUnit.accept kind payload := congrArg FramerUnit.take hrequest
        _ = .sending (layoutBlock kind payload) := FramerUnit.accept_frame hframe
    have hlast : (layoutBlock kind payload).getLast? = some Config.trail := by
      rw [layoutBlock, List.getLast?_append]; rfl
    obtain ⟨b, rest, hcons⟩ : ∃ b rest, layoutBlock kind payload = b :: rest := ⟨_, _, rfl⟩
    rw [hcons] at hloaded hcount hlast ⊢
    rw [List.countP_append, List.countP_singleton, if_pos hready] at hcount
    obtain ⟨htransfers, hend, hquiet⟩ :=
      FramerUnit.sending_cycles b rest hr hready (Nat.succ.inj hcount)
    have htrail : (b :: rest).getLast (by simp) = Config.trail :=
      Option.some.inj ((List.getLast?_eq_some_getLast _).symm.trans hlast)
    rw [hloaded, htransfers, htrail]
    exact ⟨rfl, hlast, hend, hquiet⟩

/-! ### A drain (R115, R117) -/

/-- A drain with `k` bytes to pop takes `k` cycles and the evaluation, in which the transaction level sees no change. -/
theorem cyclesOf_drain {w : Wait} {cs : List ClockIn} {k : Nat} {s : State} (hw : s.state = w.session)
    (ho : s.linkOpen = true) (hd : s.drain = some k) (hk : k ≤ s.rxq.length) (hlen : cs.length = k + 1)
    (hcs : ∀ c ∈ cs, c.rst = false ∧ c.tickMs = false) :
    ∃ t, cyclesOf cs s = .next t ∧ t.drain = none ∧ t.transaction = s.transaction := by
  induction k generalizing cs s with
  | zero =>
    obtain ⟨c, rfl⟩ := List.length_eq_one_iff.1 hlen
    obtain ⟨hr, htick⟩ := hcs c (by simp)
    have hcycle := clockCycle_of_coreCycle hr ((coreCycle_wait hw c).trans (awaitCycle_evaluate hd w))
    rw [tickCycle_of_not_ticking htick] at hcycle
    refine ⟨_, by rw [cyclesOf, hcycle]; rfl, ?_, State.evaluated_transaction hw hd⟩
    split <;> simp [State.undrained]
  | succ k ih =>
    obtain ⟨c, cs, rfl⟩ := List.exists_cons_of_length_eq_add_one hlen
    obtain ⟨⟨hr, htick⟩, hcs⟩ := List.forall_mem_cons.1 hcs
    have hq : s.rxq ≠ [] := by rintro hq; simp [hq] at hk
    have hcycle := clockCycle_of_coreCycle hr ((coreCycle_wait hw c).trans (awaitCycle_pop ho hd hq w))
    rw [tickCycle_of_not_ticking htick] at hcycle
    have hleft : k ≤ (s.popped k).rxq.length := by simp [State.popped]; omega
    obtain ⟨t, hrun, htd, ht⟩ := ih (s := s.popped k) hw ho rfl hleft (by simpa using hlen) hcs
    exact ⟨t, by rw [cyclesOf, hcycle, Result.andThen_next, hrun], htd, ht.trans (State.popped_transaction hw hd)⟩

/-- A whole drain, from the sample on, is one poll step. -/
theorem cyclesOf_poll {w : Wait} {cs : List ClockIn} {s : State} (hw : s.state = w.session) (ho : s.linkOpen = true)
    (hd : s.drain = none) (ht : s.wdElapsed.toNat < s.timeoutMs.toNat) (hq : s.rxq ≠ [])
    (hlen : cs.length = s.rxq.length + 2) (hcs : ∀ c ∈ cs, c.rst = false ∧ c.tickMs = false) :
    ∃ t u, cyclesOf cs s = .next t ∧ execAwaitPoll s = .next u ∧ t.view = u.view := by
  obtain ⟨c, cs, rfl⟩ := List.exists_cons_of_length_eq_add_one hlen
  obtain ⟨⟨hr, htick⟩, hcs⟩ := List.forall_mem_cons.1 hcs
  have hearly : ¬ s.timeUp = true := by rw [timeUp_iff]; omega
  have hcycle := clockCycle_of_coreCycle hr ((coreCycle_wait hw c).trans (awaitCycle_poll ho hd w))
  rw [tickCycle_of_not_ticking htick, if_neg hearly, if_neg hq] at hcycle
  obtain ⟨t, hrun, htd, htt⟩ := cyclesOf_drain (s := s.sampled) hw ho rfl (Nat.le_refl _) (by simpa using hlen) hcs
  have hpoll := execAwaitPoll_inTime hw ho ht
  rw [if_neg hq] at hpoll
  refine ⟨t, _, by rw [cyclesOf, hcycle, Result.andThen_next, hrun], hpoll, ?_⟩
  rw [← State.transaction_of_drain_none htd, htt, State.sampled_transaction hw hd]

/-- Settles O57: the drain as a whole, and the ports by what `drain` holds. -/
theorem drainIsOnePollStep : Obligations.DrainIsOnePollStep := by
  refine ⟨?wholeDrain, fun inputs s hr ha ho =>
    ⟨fun hd => ?sampleCycle, fun k b q hd hq => ?popCycle, fun hd => ?evaluationCycle⟩, fun inputs s ha => ?outside⟩
  case wholeDrain =>
    intro cs s ha ho hd ht hq hlen hcs
    obtain ⟨w, hw⟩ := SessionState.isAwaiting_iff.1 ha
    exact cyclesOf_poll hw ho hd ht hq hlen hcs
  case sampleCycle =>
    have hclose : (ports inputs s).linkClose = s.timeUp := by simp [ports, hr, ha, hd]
    refine ⟨by simp [ports, State.rxPop, hd], by simp [ports, State.rxPop, hd], ?_, fun hc => ?_⟩
    · rw [hclose, timeUp_iff]
    · obtain ⟨w, hw⟩ := SessionState.isAwaiting_iff.1 ha
      have hcore := (coreCycle_wait hw inputs).trans (awaitCycle_poll ho hd w)
      rw [if_pos (hclose ▸ hc)] at hcore
      have hended : s.enterFailed.tick = s.enterFailed := State.tick_of_not_awaiting _ rfl
      rw [clockCycle_of_coreCycle hr hcore, tickCycle_of_awaiting ha, hended, ite_self, exec_awaitTimeout hw ho]
  case popCycle =>
    have hlast : s.diagLast b = decide (k = 0 ∧ 0x0A ∈ s.rxbuf ++ [b]) := by
      rw [State.diagLast, hd, Bool.eq_iff_iff]
      simp [hasNewline_iff]
    have hpop : s.rxPop = true := by simp [State.rxPop, ha, hd]
    refine ⟨by simp [ports, hr, hpop], by simp [ports, hd], by simp [ports, hr, hpop, hq, hlast], ?_⟩
    · obtain ⟨w, hw⟩ := SessionState.isAwaiting_iff.1 ha
      have hcore := (coreCycle_wait hw inputs).trans (awaitCycle_pop ho hd (by simp [hq]) w)
      refine ⟨_, clockCycle_of_coreCycle hr hcore, ?_⟩
      rw [tickCycle_of_awaiting ha]
      split <;> simp [State.popped, hq]
  case evaluationCycle =>
    simp [ports, State.rxPop, hd]
  case outside =>
    simp [ports, State.rxPop, ha]

end Sys2Proof.Machine
end

section
/-! PROOFS. The family 45_link_and_ports.md, the operations on the Link and the start command (R104 to R110): on an open
Link each is the update of its rule. -/

namespace Sys2Proof.Machine

/-! ### The Link -/

/-- Settles O16: the reply decides, and an error is an answer alone. -/
theorem linkOpenOpens : Obligations.LinkOpenOpens :=
  ⟨fun _ _ _ _ => rfl, fun _ _ _ => rfl⟩

/-- Settles O17: the whole write is taken. -/
theorem linkWriteAppends : Obligations.LinkWriteAppends := by
  intro bs s ho
  simp only [exec, execLinkWrite, linkWrite_open ho]
  rfl

theorem linkRead_beyond {s : State} {n : Nat} (ho : s.linkOpen = true) (hn : n = 0 ∨ s.rxq.length < n) :
    linkRead n s = .error .readBeyondQueue := by
  rw [linkRead, if_pos ho, if_pos hn]

/-- Settles O18: the probe, the read inside the queue, and the read of nothing or beyond it. -/
theorem linkProbeAndRead : Obligations.LinkProbeAndRead := by
  refine ⟨?probe, ?inside, ?beyond⟩
  case probe =>
    intro s ho
    simp only [exec, execLinkAvail, linkAvail_open ho]
    rfl
  case inside =>
    intro n s ho hpos hle
    simp only [exec, execLinkRead, linkRead_open ho hpos hle]
    rfl
  case beyond =>
    intro n s ho hn
    simp only [exec, execLinkRead, linkRead_beyond ho hn]

/-- Settles O19: the flag for one, the end of the queue for the other. -/
theorem linkCloseAndEnqueue : Obligations.LinkCloseAndEnqueue := by
  refine ⟨fun s ho => ?close, fun b s ho => ?enqueue⟩
  case close =>
    rw [exec, execLinkClose, linkClose_open ho]
    rfl
  case enqueue =>
    rw [exec, execRemoteEnqueue, remoteEnqueue_open ho]
    rfl

/-! ### The start command (R90, R110) -/

theorem exec_hostStart_accepted {s : State} (hs : s.state = .idle) (ho : s.linkOpen = true) (a : Word16) (n : Nat)
    (v : Word16) : exec (.hostStart a n v) s = .next (s.latchStart a n v) :=
  if_pos ⟨hs, ho⟩

theorem exec_hostStart_ignored {s : State} (h : s.state ≠ .idle ∨ s.linkOpen = false) (a : Word16) (n : Nat)
    (v : Word16) : exec (.hostStart a n v) s = .next s := by
  refine if_neg ?_
  rintro ⟨hs, ho⟩
  exact h.elim (absurd hs) fun hclosed => by simp [hclosed] at ho

/-- Settles O22: accepted in `Idle` with the Link open, ignored in any other case. -/
theorem startCommand : Obligations.StartCommand :=
  ⟨fun a n v _ hs ho => exec_hostStart_accepted hs ho a n v, fun a n v _ h => exec_hostStart_ignored h a n v⟩

/-- Settles O48: the latch has made no write and echoed no line. -/
theorem startBeginsAHistory : Obligations.StartBeginsAHistory := by
  intro a v image s hs ho himg
  exact ⟨_, exec_hostStart_accepted hs ho a image.length v, RunHistory.latchStart himg ho v⟩

end Sys2Proof.Machine
end

section
/-! PROOFS. The family 70_reset_and_hazards.md: HOST.RESET is `State.resetRegs` (R135), and the status outputs follow from
the `Idle` it leaves. -/

namespace Sys2Proof.Machine

/-! ### Reset (R135) -/

/-- The status outputs of `Idle` (R29): neither end is signalled and no run is on. -/
theorem State.status_of_idle {s : State} (hs : s.state = .idle) :
    s.doneOut = false ∧ s.failedOut = false ∧ s.busy = false :=
  ⟨by simp [State.doneOut, hs], by simp [State.failedOut, hs], s.busy_eq_false_iff.2 (.inl hs)⟩

theorem exec_hostReset (s : State) : exec .hostReset s = .next s.resetRegs := rfl

/-- Settles O23: field by field, as `State.resetRegs` sets or keeps it, and then the status of `Idle`. -/
theorem resetSetsTheRegisters : Obligations.ResetSetsTheRegisters := by
  intro s
  have hstatus := State.status_of_idle s.resetRegs_state
  exact ⟨_, exec_hostReset s, by simp [hstatus]⟩

end Sys2Proof.Machine
end

section
/-! PROOFS. The family other: what the model refuses because the Link is closed (93_implementation_defined.md U7, log
entry 12). -/

namespace Sys2Proof.Machine

variable {s : State}

/-! ### A closed Link -/

/-- A sending step on a closed Link fails at its write, with nothing advanced and no wait entered. -/
theorem sendBlock_closed {kind : Kind} {payload bs : List Byte} (h : s.linkOpen = false)
    (hf : frame kind payload = some bs) (n : Nat) (w : Wait) :
    sendBlock kind payload n w s = .refused .linkClosed := by
  simp only [sendBlock, hf, linkWrite_closed h]

theorem exec_sessionSendStart_closed (h : s.linkOpen = false) (hs : s.state = .sendingStart) :
    exec .sessionSendStart s = .refused .linkClosed :=
  (if_pos hs).trans (sendBlock_closed h (frame_start_be16 s.startAddr) 0 .startAck)

theorem exec_sessionSendTrailer_closed (h : s.linkOpen = false) (hs : s.state = .sendingTrailer) :
    exec .sessionSendTrailer s = .refused .linkClosed :=
  (if_pos hs).trans (sendBlock_closed h frame_trailer_nil 0 .trailerAck)

/-- The Image holds the chunk and the Framer takes it, so the closed Link is all that stops the step. -/
theorem exec_sessionSendData_closed (h : s.linkOpen = false) (hs : s.state = .sendingData) (hc : s.cursor < s.imgLen)
    (hi : ∀ i < s.imgLen, (s.img.read i).isSome = true) : exec .sessionSendData s = .refused .linkClosed := by
  obtain ⟨chunk, hnext, hlen, -⟩ := segNext_chunk hc hi
  have hpos : 1 ≤ chunk.length := hlen ▸ chunkSize_pos hc
  have hle : chunk.length ≤ 255 := hlen ▸ chunkSize_le s.imgLen s.cursor
  rw [exec, execSessionSendData, if_pos ⟨hs, hc⟩, hnext]
  exact sendBlock_closed h (frame_data_chunk hpos hle) chunk.length .dataAck

/-- The poll step uses the Link on both sides of its timeout test: to close it or to probe it (R97, R99). -/
theorem exec_awaitPoll_closed {w : Wait} (h : s.linkOpen = false) (hw : s.state = w.session) :
    exec .awaitPoll s = .refused .linkClosed := by
  simp only [exec, execAwaitPoll, hw, SessionState.wait?_session]
  split
  case isTrue => rw [raiseNoAcknowledgment_closed h, Result.ofExcept_error]
  case isFalse => rw [probe, linkAvail_closed h]

theorem exec_awaitTimeout_closed {w : Wait} (h : s.linkOpen = false) (hw : s.state = w.session) :
    exec .awaitTimeout s = .refused .linkClosed := by
  simp only [exec, execAwaitTimeout, hw, SessionState.wait?_session, raiseNoAcknowledgment_closed h,
    Result.ofExcept_error]

/-- Settles O20: each operation of the Link refuses by itself, and the core's steps at the first one they use. -/
theorem closedLinkIsRefused : Obligations.ClosedLinkIsRefused := by
  intro s h
  refine ⟨fun bs => ?write, ?avail, fun n => ?read, ?close, fun b => ?enqueue, exec_sessionSendStart_closed h,
    exec_sessionSendTrailer_closed h, exec_sessionSendData_closed h, fun ha => ?wait⟩
  case write => rw [exec, execLinkWrite, linkWrite_closed h]
  case avail => rw [exec, execLinkAvail, linkAvail_closed h]
  case read => rw [exec, execLinkRead, linkRead_closed h]
  case close => rw [exec, execLinkClose, linkClose_closed h, Result.ofExcept_error]
  case enqueue => rw [exec, execRemoteEnqueue, remoteEnqueue_closed h, Result.ofExcept_error]
  case wait =>
    obtain ⟨w, hw⟩ := SessionState.isAwaiting_iff.1 ha
    exact ⟨exec_awaitPoll_closed h hw, exec_awaitTimeout_closed h hw⟩

end Sys2Proof.Machine
end
